-- ==== Sys2Proof/Word.lean ====
section
/-! DEFINITION. The bit-vector types of the FCGM: byte, half-word and word (spec 00_scope.md R9). -/

namespace Sys2Proof

/-- A byte, 8 bits (R9). -/
abbrev Byte := BitVec 8

/-- A half-word, 16 bits (R9). -/
abbrev Half := BitVec 16

/-- A word of the host data bus, 32 bits (R8, R9). -/
abbrev Word := BitVec 32

end Sys2Proof
end

