-- ==== Sys2Proof/Config.lean ====
section
/-! DEFINITION. The parameters of the FCGM (spec 00_scope.md R8): the fixed ones with their values, the OPEN ones and the
unspecified reset contents of the buffers as constants without a body, of which nothing can be proved. -/

namespace Sys2Proof.Config

/-- `HDR1`, the first header byte (R8). -/
def hdr1 : Byte := 0x5A#8

/-- `HDR2`, the second header byte (R8). -/
def hdr2 : Byte := 0xA5#8

/-- `CAP`, the capacity of the receive buffer in bytes (R8). -/
abbrev cap : Nat := 64

/-- `TXCAP`, the capacity of the transmit buffer in bytes (R8, decision D17). -/
abbrev txcap : Nat := 64

/-- `TEXTCAP`, the size of the text buffer in bytes, `TXCAP - 6` (R8, decision D18). -/
abbrev textcap : Nat := 58

/-- `WIN_LO`, the low end of the raw-linear window (R8). -/
abbrev winLo : Nat := 0x100

/-- `WIN_HI`, the high end of the raw-linear window (R8). -/
abbrev winHi : Nat := 0x164

/-- `LEVEL_MAX` (R8). -/
abbrev levelMax : Nat := 100

/-- `BASE`, the host address of the register window: OPEN (R8, 20_memory.md R61, I9; log 10). -/
opaque base : Nat

/-- `LAT_OP`, the time an operation takes: OPEN, and no rule depends on it (R8, 70_reset_and_hazards.md R290, I11;
log 12). Nothing in the model reads it. -/
opaque latOp : Nat

/-- The byte `RXBUF[i]` comes up with at the reset of the given number: unspecified (70_reset_and_hazards.md R270, I1:
"one draw per element at reset"), so a free value (log 5). -/
opaque resetRxByte (reset i : Nat) : Byte

/-- The byte `TXBUF[i]` comes up with at the reset of the given number: a free value (R270, I1; log 5). -/
opaque resetTxByte (reset i : Nat) : Byte

/-- The byte `TEXTBUF[i]` comes up with at the reset of the given number: a free value (R270, I1, D35; log 5). -/
opaque resetTextByte (reset i : Nat) : Byte

end Sys2Proof.Config
end

