-- ==== Sys2Proof/Machine/HostBus.lean ====
section
/-! DEFINITION. What the outside does to the FCGM: host accesses to the register window, of any width, and the reset input
(spec 20_memory.md R60 to R63, 70_reset_and_hazards.md R270), and what the bus answers. -/

namespace Sys2Proof.Machine

/-- The offset of an access in the 1024-byte window, `0x000` to `0x3FF` (R60, R61). -/
abbrev Offset := BitVec 10

/-- A host access to the window (R12, R60): `MemRead(off, size)` and `MemWrite(off, size, value)`, `size` in bytes. A narrow
access is one of another size than 4; the window never looks at its value. -/
inductive Access where
  | read (size : Nat) (off : Offset)
  | write (size : Nat) (off : Offset) (value : Word)
  deriving DecidableEq, Repr

/-- What the host and the platform deliver to the block, one at a time (R73, R270; log 1, log 6). -/
inductive Input where
  | access (a : Access)
  | reset
  deriving DecidableEq, Repr

/-- What the bus answers to an access (R63; log 3). An error response to a read carries data, which R63 fixes at 0. -/
inductive Response where
  | readOk (data : Word)
  | writeOk
  | readError (data : Word)
  | writeError
  deriving DecidableEq, Repr

/-- The size of an access in bytes. -/
def Access.size : Access → Nat
  | .read size _ => size
  | .write size _ _ => size

/-- The offset of an access. -/
def Access.off : Access → Offset
  | .read _ off => off
  | .write _ off _ => off

/-- R62: the window accepts exactly the 32-bit accesses with `off[1:0] = 0b00`. -/
def Access.accepted (a : Access) : Bool :=
  a.size == 4 && a.off.extractLsb' 0 2 == 0#2

/-- The host address of an offset: `BASE + off` (R61). -/
def hostAddress (off : Offset) : Nat := Config.base + off.toNat

/-- The offset a host address falls at, if it is in the window (R61). -/
def offsetOfAddress (addr : Nat) : Option Offset :=
  if Config.base ≤ addr ∧ addr ≤ Config.base + 0x3FF then some (BitVec.ofNat 10 (addr - Config.base)) else none

end Sys2Proof.Machine
end

