-- ==== Sys2Proof/Syntax.lean ====
section
/-! DEFINITION. The operations of the FCGM as syntax: one constructor per row of the opcode map (spec 30_encoding.md R94,
spec/opcode_table.json), carrying the command-word fields the row says the operation uses. A field an operation does not
use has no place here: its value has no effect (R93; log 8). -/

namespace Sys2Proof

/-- The 18 operations a command word names (R94). `Byte` arguments are the field `B`, `Half` arguments the field `H`, both
as they stand in the word: the clamping of a level operand (`lvl(H)`, R92) belongs to the operation. -/
inductive Instr where
  /-- `NOP` (43_control.md R230). -/
  | nop
  /-- `FEED b`: one received byte (40_decoder.md R120). -/
  | feed (b : Byte)
  /-- `ENC.WREG reg, data` (41_encoder.md R162). -/
  | encWreg (reg : Byte) (data : Half)
  /-- `ENC.WVAR value` (R163). -/
  | encWvar (value : Half)
  /-- `ENC.WVOL vol` (R164). -/
  | encWvol (vol : Half)
  /-- `ENC.WTEXT n` (R165). -/
  | encWtext (n : Byte)
  /-- `ENC.RVAR count` (R167). -/
  | encRvar (count : Byte)
  /-- `MAP.L2G h`: level to gain (42_mapper.md R200). -/
  | mapL2g (h : Half)
  /-- `MAP.G2L h`: gain to level (R201). -/
  | mapG2l (h : Half)
  /-- `MAP.P2L h`: packed value to level (R202). -/
  | mapP2l (h : Half)
  /-- `MAP.L2P h`: level to packed value (R203). -/
  | mapL2p (h : Half)
  /-- `MAP.R2L h`: raw-linear value to level (R204). -/
  | mapR2l (h : Half)
  /-- `MAP.L2R h`: level to raw-linear value (R205). -/
  | mapL2r (h : Half)
  /-- `MAP.P2G h`: packed value to gain (R206). -/
  | mapP2g (h : Half)
  /-- `MAP.G2P h`: gain to packed value (R207). -/
  | mapG2p (h : Half)
  /-- `MAP.R2G h`: raw-linear value to gain (R208). -/
  | mapR2g (h : Half)
  /-- `MAP.G2R h`: gain to raw-linear value (R209). -/
  | mapG2r (h : Half)
  /-- `MAP.LIN h`: the linear identity on levels (R210). -/
  | mapLin (h : Half)
  deriving DecidableEq, Repr

end Sys2Proof
end

