-- ==== Sys2Proof/WellFormed.lean ====
section
/-! DEFINITION. Well-formedness. Every operand of an operation is a whole byte or half-word and the spec accepts every value
of it, so every operation is well formed; what can be ill formed is an access of a size the 32-bit bus cannot make (log
16). -/

namespace Sys2Proof

/-- An operation is well formed: no operand value is illegal (R93 "no encoding is illegal because of it"; R162, R163, R165,
R167, and 42_mapper.md R190 to R198 for the mapper's inputs). One case per operation, so that an operation with an illegal
operand could not slip past. -/
def Instr.wf : Instr → Bool
  | .nop => true
  | .feed _ => true
  | .encWreg _ _ => true
  | .encWvar _ => true
  | .encWvol _ => true
  | .encWtext _ => true
  | .encRvar _ => true
  | .mapL2g _ => true
  | .mapG2l _ => true
  | .mapP2l _ => true
  | .mapL2p _ => true
  | .mapR2l _ => true
  | .mapL2r _ => true
  | .mapP2g _ => true
  | .mapG2p _ => true
  | .mapR2g _ => true
  | .mapG2r _ => true
  | .mapLin _ => true

/-- An access a 32-bit bus can make: 8, 16 or 32 bits wide (R8, R63). The machine does not rest on it: an access of any
other size is rejected like a narrow one (R244). -/
def Machine.Access.wf (a : Machine.Access) : Bool :=
  a.size == 1 || a.size == 2 || a.size == 4

/-- A well-formed input: a reset, or a well-formed access. -/
def Machine.Input.wf : Machine.Input → Bool
  | .access a => a.wf
  | .reset => true

end Sys2Proof
end

