-- ==== Sys2Proof/Decode.lean ====
section
/-! DEFINITION. The command word (spec 30_encoding.md R90 to R95): its fields, the decoder (total on all 2^32 words, a
reserved opcode rejected by name) and the encoder. -/

namespace Sys2Proof

/-- `OPC = w[31:24]` (R91). -/
def opcField (w : Word) : Byte := w.extractLsb' 24 8

/-- `B = w[23:16]` (R91). -/
def byteField (w : Word) : Byte := w.extractLsb' 16 8

/-- `H = w[15:0]` (R91). -/
def halfField (w : Word) : Half := w.extractLsb' 0 16

/-- The command word `{OPC:8, B:8, H:16}` (R91, R9). -/
def commandWord (opc b : Byte) (h : Half) : Word := opc ++ b ++ h

/-- Why a word names no operation: its opcode is one of the 238 reserved ones (R95). -/
inductive DecodeError where
  | reservedOpcode (opc : Byte)
  deriving DecidableEq, Repr

/-- The operation a command word names (R90, R94), or the reserved opcode it holds (R95). -/
def decode (w : Word) : Except DecodeError Instr :=
  match opcField w with
  | 0x00#8 => .ok .nop
  | 0x01#8 => .ok (.feed (byteField w))
  | 0x10#8 => .ok (.encWreg (byteField w) (halfField w))
  | 0x11#8 => .ok (.encWvar (halfField w))
  | 0x12#8 => .ok (.encWvol (halfField w))
  | 0x13#8 => .ok (.encWtext (byteField w))
  | 0x14#8 => .ok (.encRvar (byteField w))
  | 0x20#8 => .ok (.mapL2g (halfField w))
  | 0x21#8 => .ok (.mapG2l (halfField w))
  | 0x22#8 => .ok (.mapP2l (halfField w))
  | 0x23#8 => .ok (.mapL2p (halfField w))
  | 0x24#8 => .ok (.mapR2l (halfField w))
  | 0x25#8 => .ok (.mapL2r (halfField w))
  | 0x26#8 => .ok (.mapP2g (halfField w))
  | 0x27#8 => .ok (.mapG2p (halfField w))
  | 0x28#8 => .ok (.mapR2g (halfField w))
  | 0x29#8 => .ok (.mapG2r (halfField w))
  | 0x2A#8 => .ok (.mapLin (halfField w))
  | opc => .error (.reservedOpcode opc)

/-- The command word of an operation, zero in the fields it does not use (R94, R101). -/
def encode : Instr → Word
  | .nop => commandWord 0x00#8 0#8 0#16
  | .feed b => commandWord 0x01#8 b 0#16
  | .encWreg reg data => commandWord 0x10#8 reg data
  | .encWvar value => commandWord 0x11#8 0#8 value
  | .encWvol vol => commandWord 0x12#8 0#8 vol
  | .encWtext n => commandWord 0x13#8 n 0#16
  | .encRvar count => commandWord 0x14#8 count 0#16
  | .mapL2g h => commandWord 0x20#8 0#8 h
  | .mapG2l h => commandWord 0x21#8 0#8 h
  | .mapP2l h => commandWord 0x22#8 0#8 h
  | .mapL2p h => commandWord 0x23#8 0#8 h
  | .mapR2l h => commandWord 0x24#8 0#8 h
  | .mapL2r h => commandWord 0x25#8 0#8 h
  | .mapP2g h => commandWord 0x26#8 0#8 h
  | .mapG2p h => commandWord 0x27#8 0#8 h
  | .mapR2g h => commandWord 0x28#8 0#8 h
  | .mapG2r h => commandWord 0x29#8 0#8 h
  | .mapLin h => commandWord 0x2A#8 0#8 h

/-- A row of the opcode table: the mnemonic, and the words it covers as `w &&& mask = pattern` (spec/opcode_table.json). -/
structure OpcodeRow where
  mnemonic : String
  pattern : Word
  mask : Word
  deriving DecidableEq, Repr

/-- The opcode map as the table gives it (R94, spec/opcode_table.json), in its order. -/
def opcodeTable : List OpcodeRow :=
  [⟨"NOP", 0x00000000#32, 0xFF000000#32⟩, ⟨"FEED", 0x01000000#32, 0xFF000000#32⟩,
   ⟨"ENC.WREG", 0x10000000#32, 0xFF000000#32⟩, ⟨"ENC.WVAR", 0x11000000#32, 0xFF000000#32⟩,
   ⟨"ENC.WVOL", 0x12000000#32, 0xFF000000#32⟩, ⟨"ENC.WTEXT", 0x13000000#32, 0xFF000000#32⟩,
   ⟨"ENC.RVAR", 0x14000000#32, 0xFF000000#32⟩, ⟨"MAP.L2G", 0x20000000#32, 0xFF000000#32⟩,
   ⟨"MAP.G2L", 0x21000000#32, 0xFF000000#32⟩, ⟨"MAP.P2L", 0x22000000#32, 0xFF000000#32⟩,
   ⟨"MAP.L2P", 0x23000000#32, 0xFF000000#32⟩, ⟨"MAP.R2L", 0x24000000#32, 0xFF000000#32⟩,
   ⟨"MAP.L2R", 0x25000000#32, 0xFF000000#32⟩, ⟨"MAP.P2G", 0x26000000#32, 0xFF000000#32⟩,
   ⟨"MAP.G2P", 0x27000000#32, 0xFF000000#32⟩, ⟨"MAP.R2G", 0x28000000#32, 0xFF000000#32⟩,
   ⟨"MAP.G2R", 0x29000000#32, 0xFF000000#32⟩, ⟨"MAP.LIN", 0x2A000000#32, 0xFF000000#32⟩]

/-- The mnemonic of an operation (R94). -/
def Instr.mnemonic : Instr → String
  | .nop => "NOP"
  | .feed _ => "FEED"
  | .encWreg _ _ => "ENC.WREG"
  | .encWvar _ => "ENC.WVAR"
  | .encWvol _ => "ENC.WVOL"
  | .encWtext _ => "ENC.WTEXT"
  | .encRvar _ => "ENC.RVAR"
  | .mapL2g _ => "MAP.L2G"
  | .mapG2l _ => "MAP.G2L"
  | .mapP2l _ => "MAP.P2L"
  | .mapL2p _ => "MAP.L2P"
  | .mapR2l _ => "MAP.R2L"
  | .mapL2r _ => "MAP.L2R"
  | .mapP2g _ => "MAP.P2G"
  | .mapG2p _ => "MAP.G2P"
  | .mapR2g _ => "MAP.R2G"
  | .mapG2r _ => "MAP.G2R"
  | .mapLin _ => "MAP.LIN"

/-- What the decoder reads from an instruction of `nbits` bits given as a number: a command word is one 32-bit value with no
byte order (R71, R90; log 9), the bits above `nbits` zero. -/
def decodeTableWord (nbits w : Nat) : Option Instr :=
  match decode (BitVec.ofNat 32 (w % 2 ^ nbits)) with
  | .ok i => some i
  | .error _ => none

end Sys2Proof
end

