-- ==== Sys2Proof/Machine/State.lean ====
section
/-! DEFINITION. The state of the FCGM (spec 10_state.md): every register and buffer the spec gives it, and the model's own
fields that say what the outside delivers and what the bus answered. Plain data throughout. -/

namespace Sys2Proof.Machine

/-- The decoder state `DSTATE` (R22). The value 3 "is never written by any rule" and has no constructor (R136(f), I6;
log 7). -/
inductive DState where
  | idle
  | headerSeen
  | collecting
  deriving DecidableEq, Repr

/-- The command class `CCLS` (R28). The values 6 and 7 are "never written" and have no constructor (I7; log 7). -/
inductive CmdClass where
  | writeRegister
  | readRtc
  | writeVariable
  | readVariable
  | unknown
  | noCommand
  deriving DecidableEq, Repr

/-- The four events (60_exceptions.md R240 to R244). -/
inductive Event where
  /-- Raised by `FEED` (R242). -/
  | frameDiscard
  /-- Raised by `ENC.WTEXT` (R243). -/
  | encodeLength
  /-- Raised by a `CMD` write with a reserved opcode (R241). -/
  | illegalOp
  /-- Raised by a rejected host access (R244). -/
  | busError
  deriving DecidableEq, Repr

/-- A number of bytes of a 64-byte buffer, 0 to 64: what `RXCNT`, `FLEN` and `TXLEN` hold (R23, R30, R41; log 7). -/
abbrev Count := Fin 65

/-- The state. The first 22 fields are the spec's and are the whole of it (R20); the last three are the model's own. -/
structure State where
  /-- `DSTATE` (R22). -/
  dstate : DState
  /-- `RXCNT` (R23). -/
  rxcnt : Count
  /-- `RXBUF[0..63]` (R24). -/
  rxbuf : Vector Byte 64
  /-- `FV`, frame valid (R26). -/
  fv : Bool
  /-- `DP`, dispatch pending (R27). -/
  dp : Bool
  /-- `CCLS` (R28). -/
  ccls : CmdClass
  /-- `PV`, payload valid (R29). -/
  pv : Bool
  /-- `FLEN` (R30). -/
  flen : Count
  /-- `FLENB` (R31). -/
  flenb : Byte
  /-- `FCMD` (R32). -/
  fcmd : Byte
  /-- `RX_VADDR` (R33). -/
  rxVaddr : Half
  /-- `RX_VDATA` (R33). -/
  rxVdata : Half
  /-- `DROP` (R34). -/
  drop : Bool
  /-- `EERR` (R35). -/
  eerr : Bool
  /-- `ILLOP` (R36). -/
  illop : Bool
  /-- `BUSERR` (R37). -/
  buserr : Bool
  /-- `HANDLER_EN[5:0]` (R38). -/
  handlerEn : BitVec 6
  /-- `VADDR` (R39). -/
  vaddr : Half
  /-- `RESULT` (R40). -/
  result : Half
  /-- `TXLEN` (R41). -/
  txlen : Count
  /-- `TXBUF[0..63]` (R42). -/
  txbuf : Vector Byte 64
  /-- `TEXTBUF[0..57]` (R43). -/
  textbuf : Vector Byte 58
  /-- MODEL: what the host and the platform have yet to deliver, oldest first (log 1). -/
  inputs : List Input
  /-- MODEL: the bus's answer to the last access serviced (log 3). -/
  resp : Option Response
  /-- MODEL: how many resets have been applied, the number of the draw of free reset contents (log 5). -/
  resets : Nat
  deriving DecidableEq, Repr

/-- Reasons to stop with a fault: none. "The FCGM has no trap and never stops" (00_scope.md R12, R250; log 18). The type
has no constructor, so no meaning can answer one. -/
inductive Fault where
  deriving DecidableEq, Repr

/-- Reasons to refuse. -/
inductive Refusal where
  /-- Raised by an arm of `exec` whose operation has no meaning yet. No arm does: every operation has one. Safe: the
  machine stops where the hardware goes on. -/
  | notModelled (mnemonic : String)
  deriving DecidableEq, Repr

/-- The state right after reset (70_reset_and_hazards.md R270): every register at the value of R270's table, and each byte
of the three buffers, which R270 leaves unspecified, a free value of its own (log 5). Nothing has been delivered to the
block yet (log 1). -/
def State.reset : State where
  dstate := .idle
  rxcnt := 0
  rxbuf := Vector.ofFn fun i => Config.resetRxByte 0 i.val
  fv := false
  dp := false
  ccls := .writeRegister
  pv := false
  flen := 0
  flenb := 0#8
  fcmd := 0#8
  rxVaddr := 0#16
  rxVdata := 0#16
  drop := false
  eerr := false
  illop := false
  buserr := false
  handlerEn := 0#6
  vaddr := 0#16
  result := 0#16
  txlen := 0
  txbuf := Vector.ofFn fun i => Config.resetTxByte 0 i.val
  textbuf := Vector.ofFn fun i => Config.resetTextByte 0 i.val
  inputs := []
  resp := none
  resets := 0

end Sys2Proof.Machine
end

