-- ==== Sys2Proof/Machine/Flags.lean ====
section
/-! DEFINITION. The flags: the codes of `DSTATE`, `CCLS` and the events, the `STATUS` word, its W1C clears and the interrupt
output (spec 10_state.md R22, R28, R46, R56; 43_control.md R233; 60_exceptions.md R240 to R247). -/

namespace Sys2Proof.Machine

/-- The code of `DSTATE` (R22). -/
def DState.code : DState → BitVec 2
  | .idle => 0#2
  | .headerSeen => 1#2
  | .collecting => 2#2

/-- The code of `CCLS` (R28). -/
def CmdClass.code : CmdClass → BitVec 3
  | .writeRegister => 0#3
  | .readRtc => 1#3
  | .writeVariable => 2#3
  | .readVariable => 3#3
  | .unknown => 4#3
  | .noCommand => 5#3

/-- The cause code of an event: the bit position of its flag in `STATUS` (R240 to R244). -/
def Event.cause : Event → Nat
  | .frameDiscard => 8
  | .encodeLength => 9
  | .illegalOp => 10
  | .busError => 11

/-- The sticky flag of an event. -/
def Event.flag (e : Event) (s : State) : Bool :=
  match e with
  | .frameDiscard => s.drop
  | .encodeLength => s.eerr
  | .illegalOp => s.illop
  | .busError => s.buserr

/-- `HANDLER_EN[c]`: whether a handler is registered for the class (R38, R51). -/
def handlerRegistered (en : BitVec 6) (c : CmdClass) : Bool := en.getLsbD c.code.toNat

/-- The word `STATUS` reads (R46): `{0:20, BUSERR, ILLOP, EERR, DROP, PV, CCLS:3, DP, FV, DSTATE:2}`. -/
def statusWord (s : State) : Word :=
  0#20 ++ BitVec.ofBool s.buserr ++ BitVec.ofBool s.illop ++ BitVec.ofBool s.eerr ++ BitVec.ofBool s.drop ++
    BitVec.ofBool s.pv ++ s.ccls.code ++ BitVec.ofBool s.dp ++ BitVec.ofBool s.fv ++ s.dstate.code

/-- A flag after a W1C write of the given bit: 1 clears it, 0 leaves it (R45). -/
def w1c (flag bit : Bool) : Bool := flag && !bit

/-- The W1C clears of a write of `w` to `STATUS`, all at once (R46, R233): `DP` by bit 3, `DROP` by 8, `EERR` by 9, `ILLOP`
by 10, `BUSERR` by 11. It is also how the host returns from a dispatched frame (R251). -/
def clearFlags (w : Word) (s : State) : State :=
  { s with
    dp := w1c s.dp (w.getLsbD 3)
    drop := w1c s.drop (w.getLsbD 8)
    eerr := w1c s.eerr (w.getLsbD 9)
    illop := w1c s.illop (w.getLsbD 10)
    buserr := w1c s.buserr (w.getLsbD 11) }

/-- The output signal `irq`, which "equals `DP` at all times" (R27, R246; log 14). -/
def State.irq (s : State) : Bool := s.dp

end Sys2Proof.Machine
end

