-- ==== Sys2Proof/Machine/Operands.lean ====
section
/-! DEFINITION. Operand forms (spec 30_encoding.md R92) and the clamp behind every level input (00_scope.md R10, R13). The
form `byte(B)` is the byte itself, the forms `u16(H)` and `gain(H)` the half-word itself, read unsigned. -/

namespace Sys2Proof.Machine

/-- `v[15:8]` (R9). -/
def hiByte (v : Half) : Byte := v.extractLsb' 8 8

/-- `v[7:0]` (R9). -/
def loByte (v : Half) : Byte := v.extractLsb' 0 8

/-- `{hi, lo}` (R9): a big-endian half-word from its two bytes (20_memory.md R70). -/
def halfOf (hi lo : Byte) : Half := hi ++ lo

/-- `v` serialised high byte first (41_encoder.md R168, R70). -/
def bytesOfHalf (v : Half) : List Byte := [hiByte v, loByte v]

/-- A level, 0 to 100 (42_mapper.md R191). -/
abbrev Level := Fin (Config.levelMax + 1)

/-- `s16(h)`: a half-word read as two's complement (R10). -/
def s16 (h : Half) : Int := if h.toNat < 0x8000 then (h.toNat : Int) else (h.toNat : Int) - 0x10000

/-- `clampL(x)` (R13). -/
def clampL (x : Int) : Level :=
  if x < 0 then 0
  else if h : x > 100 then 100
  else ⟨x.toNat, by simp only [Config.levelMax]; omega⟩

/-- The operand form `lvl(H) = clampL(s16(H))` (R92). -/
def lvl (h : Half) : Level := clampL (s16 h)

/-- `zext_16` of a level (R191). -/
def levelHalf (l : Level) : Half := BitVec.ofNat 16 l.val

end Sys2Proof.Machine
end

