-- ==== Sys2Proof/Machine/Ops.lean ====
section
/-! DEFINITION. The named operations over registers and buffers that the operations of the FCGM and the host accesses share:
raising an event (the FCGM's form of an exception, spec 60_exceptions.md R240) with the W1C clear of Flags.lean beside it,
writing the buffers and the registers, answering the bus, and reset. -/

namespace Sys2Proof.Machine

/-- `raise E` (R240, R12): set the sticky flag of the event and do nothing else. No state is saved and nothing is redirected
(R250). -/
def raise (e : Event) (s : State) : State :=
  match e with
  | .frameDiscard => { s with drop := true }
  | .encodeLength => { s with eerr := true }
  | .illegalOp => { s with illop := true }
  | .busError => { s with buserr := true }

/-- `RXBUF[i] <- b` (R24). -/
def putRx (i : Fin 64) (b : Byte) (s : State) : State :=
  { s with rxbuf := s.rxbuf.set i.val b }

/-- `RXCNT <- n; DSTATE <- d` (R22, R23). -/
def setDecoder (d : DState) (n : Count) (s : State) : State :=
  { s with dstate := d, rxcnt := n }

/-- `FV <- 0; DP <- 0`, the first step of every `FEED` (40_decoder.md R121). -/
def endFrame (s : State) : State :=
  { s with fv := false, dp := false }

/-- `RESULT <- v` (R40). -/
def setResult (v : Half) (s : State) : State :=
  { s with result := v }

/-- `TXLEN <- n` (R41). -/
def setTxlen (n : Count) (s : State) : State :=
  { s with txlen := n }

/-- The bytes `bs` written one after the other from element `k` on, the other elements as they were. -/
def overwrite {n : Nat} (k : Nat) (bs : List Byte) (buf : Vector Byte n) : Vector Byte n :=
  match bs with
  | [] => buf
  | b :: rest => overwrite (k + 1) rest (buf.setIfInBounds k b)

/-- `TXBUF[0..m-1] <- bs` for a list of `m` bytes (R42). -/
def putTx (bs : List Byte) (s : State) : State :=
  { s with txbuf := overwrite 0 bs s.txbuf }

/-- `VADDR <- v` (R39). -/
def setVaddr (v : Half) (s : State) : State :=
  { s with vaddr := v }

/-- `HANDLER_EN <- m` (R38). -/
def setHandlerEn (m : BitVec 6) (s : State) : State :=
  { s with handlerEn := m }

/-- `TEXTBUF[i] <- b` (R43). -/
def putText (i : Fin 58) (b : Byte) (s : State) : State :=
  { s with textbuf := s.textbuf.set i.val b }

/-- What the bus answers to the access being serviced (20_memory.md R63; log 3). -/
def respond (r : Response) (s : State) : State :=
  { s with resp := some r }

/-- The host's next inputs (log 1). -/
def setInputs (l : List Input) (s : State) : State :=
  { s with inputs := l }

/-- Reset (70_reset_and_hazards.md R270): every register at its reset value; each buffer byte drawn anew as a free value,
the draw numbered by the count of resets (log 5). What the outside has yet to deliver is untouched, and the bus is idle
(log 6). -/
def applyReset (s : State) : State :=
  { State.reset with
    rxbuf := Vector.ofFn fun i => Config.resetRxByte (s.resets + 1) i.val
    txbuf := Vector.ofFn fun i => Config.resetTxByte (s.resets + 1) i.val
    textbuf := Vector.ofFn fun i => Config.resetTextByte (s.resets + 1) i.val
    inputs := s.inputs
    resets := s.resets + 1 }

end Sys2Proof.Machine
end

