-- ==== Sys2Proof/Machine/Control.lean ====
section
/-! DEFINITION. The control operation `NOP` (spec 43_control.md R230). What a reserved opcode does (R231) is in
Service.lean, since no operation is executed. -/

namespace Sys2Proof.Machine

/-- `NOP`: no operation (R230). -/
def execNop (s : State) : Host.Outcome State Fault Refusal :=
  .next s

end Sys2Proof.Machine
end

