-- ==== Sys2Proof/Machine/FrameDecoder.lean ====
section
/-! DEFINITION. The frame decoder (spec 40_decoder.md): `FEED`, frame completion (`emit`) and the classification of the
completed frame. -/

namespace Sys2Proof.Machine

/-- `class(c)` of a command byte (R131, R98). -/
def classOf (c : Byte) : CmdClass :=
  if c = 0x80#8 then .writeRegister
  else if c = 0x81#8 then .readRtc
  else if c = 0x82#8 then .writeVariable
  else if c = 0x83#8 then .readVariable
  else .unknown

/-- The class of a frame of `n` bytes: the class of its command byte `RXBUF[3]`, or NoCommand for the frame that ends with
its length byte (R130, R131, R145). -/
def frameClass (n : Count) (buf : Vector Byte 64) : CmdClass :=
  if n.val = 3 then .noCommand else classOf buf[3]

/-- `FCMD` of a frame of `n` bytes: its command byte, or `0x00` where it has none (R130, R145, R32). -/
def frameCmd (n : Count) (buf : Vector Byte 64) : Byte :=
  if n.val = 3 then 0x00#8 else buf[3]

/-- `PV` of a frame of `n` bytes: whether it is a variable frame with at least four payload bytes (R130, R133). -/
def framePv (n : Count) (buf : Vector Byte 64) : Bool :=
  (frameClass n buf == .writeVariable || frameClass n buf == .readVariable) && decide (8 ≤ n.val)

/-- `emit(n)`: completion of the frame of `n` bytes held in `RXBUF[0..n-1]` (R130). -/
def emit (n : Count) (s : State) : State :=
  { s with
    flen := n
    flenb := s.rxbuf[2]
    fcmd := frameCmd n s.rxbuf
    ccls := frameClass n s.rxbuf
    pv := framePv n s.rxbuf
    rxVaddr := if framePv n s.rxbuf then halfOf s.rxbuf[4] s.rxbuf[5] else 0x0000#16
    rxVdata := if framePv n s.rxbuf then halfOf s.rxbuf[6] s.rxbuf[7] else 0x0000#16
    fv := true
    dp := handlerRegistered s.handlerEn (frameClass n s.rxbuf)
    rxcnt := 0
    dstate := .idle }

/-- Abandon the partial frame: `raise FrameDiscard; RXCNT <- 0; DSTATE <- Idle` (R125, R127, R242). -/
def discardFrame (s : State) : State :=
  setDecoder .idle 0 (raise .frameDiscard s)

/-- `EXPLEN = RXBUF[2] + 3`, an integer 3 to 258, no wrap (R25, R125). -/
def expLen (s : State) : Nat := s.rxbuf[2].toNat + 3

/-- The `Idle` case of `FEED`: only the first header byte has an effect (R122). -/
def feedIdle (b : Byte) (s : State) : State :=
  if b = Config.hdr1 then setDecoder .headerSeen 1 (putRx 0 b s) else s

/-- The `HeaderSeen` case of `FEED`: the second header byte, or resynchronisation, the byte consumed (R123). -/
def feedHeaderSeen (b : Byte) (s : State) : State :=
  if b = Config.hdr2 then setDecoder .collecting 2 (putRx 1 b s) else setDecoder .idle 0 s

/-- What follows once the byte is stored and `n` bytes are buffered: the length check (R125), completion (R126), or more to
collect. -/
def feedStored (n : Count) (s : State) : State :=
  if expLen s > Config.cap then discardFrame s
  else if n.val ≥ expLen s then emit n s
  else setDecoder .collecting n s

/-- The `Collecting` case of `FEED`: the capacity guard (R127; log 20), else the byte is appended (R124) and looked at. -/
def feedCollecting (b : Byte) (s : State) : State :=
  if h : s.rxcnt.val = Config.cap then discardFrame s
  else
    feedStored ⟨s.rxcnt.val + 1, by have := s.rxcnt.isLt; simp only [Config.cap] at h; omega⟩
      (putRx ⟨s.rxcnt.val, by have := s.rxcnt.isLt; simp only [Config.cap] at h; omega⟩ b s)

/-- `FEED b` as a function of the state (R120): clear `FV` and `DP` (R121), then the case of `DSTATE`. -/
def feed (b : Byte) (s : State) : State :=
  match s.dstate with
  | .idle => feedIdle b (endFrame s)
  | .headerSeen => feedHeaderSeen b (endFrame s)
  | .collecting => feedCollecting b (endFrame s)

/-- `FEED b` (R120). -/
def execFeed (b : Byte) (s : State) : Host.Outcome State Fault Refusal :=
  .next (feed b s)

end Sys2Proof.Machine
end

