-- ==== Sys2Proof/Machine/FrameEncoder.lean ====
section
/-! DEFINITION. The frame encoder (spec 41_encoder.md): building a frame into `TXBUF` and the five `ENC.*` operations. -/

namespace Sys2Proof.Machine

/-- The bytes of the frame with command byte `cmd` and payload `p` (R160, 30_encoding.md R96): header, length byte
`m + 1`, command byte, payload. -/
def frameOf (cmd : Byte) (p : List Byte) : List Byte :=
  Config.hdr1 :: Config.hdr2 :: BitVec.ofNat 8 (p.length + 1) :: cmd :: p

/-- `build(cmd, p)` for a payload of at most 60 bytes (R160): the frame into `TXBUF[0..m+3]`, `TXLEN <- m + 4`. -/
def build (cmd : Byte) (p : List Byte) (fits : p.length ≤ 60) (s : State) : State :=
  setTxlen ⟨p.length + 4, by omega⟩ (putTx (frameOf cmd p) s)

/-- The payload of `ENC.WTEXT n`: the address, then `TEXTBUF[0..n-1]` (R165). -/
def textPayload (n : Nat) (s : State) : List Byte :=
  bytesOfHalf s.vaddr ++ s.textbuf.toList.take n

/-- `ENC.WREG reg, data` (R162). -/
def execEncWreg (reg : Byte) (data : Half) (s : State) : Host.Outcome State Fault Refusal :=
  .next (build 0x80#8 (reg :: bytesOfHalf data) (by simp [bytesOfHalf]) s)

/-- `ENC.WVAR value` (R163). -/
def execEncWvar (value : Half) (s : State) : Host.Outcome State Fault Refusal :=
  .next (build 0x82#8 (bytesOfHalf s.vaddr ++ bytesOfHalf value) (by simp [bytesOfHalf]) s)

/-- `ENC.WVOL vol` (R164): the clamped volume in the high data byte, the low one zero; the clamp is silent (R169). -/
def execEncWvol (vol : Half) (s : State) : Host.Outcome State Fault Refusal :=
  .next (build 0x82#8 (bytesOfHalf s.vaddr ++ [BitVec.ofNat 8 (lvl vol).val, 0x00#8]) (by simp [bytesOfHalf]) s)

/-- `ENC.WTEXT n` (R165); `n > 58` builds nothing and raises `EncodeLength` (R166). -/
def execEncWtext (n : Byte) (s : State) : Host.Outcome State Fault Refusal :=
  .next (if n.toNat > Config.textcap then setTxlen 0 (raise .encodeLength s)
    else build 0x82#8 (textPayload n.toNat s)
      (by simp only [textPayload, bytesOfHalf, List.length_append, List.length_take, Vector.length_toList,
            List.length_cons, List.length_nil]; omega) s)

/-- `ENC.RVAR count` (R167). -/
def execEncRvar (count : Byte) (s : State) : Host.Outcome State Fault Refusal :=
  .next (build 0x83#8 (bytesOfHalf s.vaddr ++ [count]) (by simp [bytesOfHalf]) s)

end Sys2Proof.Machine
end

