-- ==== Sys2Proof/Machine/Rom.lean ====
section
/-! DEFINITION. The constant tables `ROM_FWD` and `ROM_TH` (spec 42_mapper.md R192, R194; 10_state.md R44), transcribed from
the spec ten entries to a line (log 15). -/

namespace Sys2Proof.Machine

/-- The entries `ROM_FWD[0..100]` (R192), in order. -/
def romFwdList : List Half :=
  [0x0000#16, 0x0023#16, 0x0026#16, 0x0028#16, 0x002B#16, 0x002E#16, 0x0032#16, 0x0035#16, 0x0039#16, 0x003D#16] ++
  [0x0042#16, 0x0046#16, 0x004B#16, 0x0051#16, 0x0056#16, 0x005D#16, 0x0063#16, 0x006A#16, 0x0072#16, 0x007A#16] ++
  [0x0083#16, 0x008C#16, 0x0097#16, 0x00A1#16, 0x00AD#16, 0x00B9#16, 0x00C7#16, 0x00D5#16, 0x00E4#16, 0x00F5#16] ++
  [0x0106#16, 0x0119#16, 0x012D#16, 0x0143#16, 0x015A#16, 0x0173#16, 0x018D#16, 0x01AA#16, 0x01C8#16, 0x01E9#16] ++
  [0x020C#16, 0x0232#16, 0x025A#16, 0x0285#16, 0x02B4#16, 0x02E5#16, 0x031B#16, 0x0354#16, 0x0391#16, 0x03D2#16] ++
  [0x0419#16, 0x0464#16, 0x04B4#16, 0x050B#16, 0x0568#16, 0x05CB#16, 0x0635#16, 0x06A7#16, 0x0722#16, 0x07A5#16] ++
  [0x0831#16, 0x08C8#16, 0x0969#16, 0x0A16#16, 0x0ACF#16, 0x0B96#16, 0x0C6B#16, 0x0D4F#16, 0x0E43#16, 0x0F49#16] ++
  [0x1062#16, 0x118F#16, 0x12D2#16, 0x142C#16, 0x159E#16, 0x172C#16, 0x18D5#16, 0x1A9E#16, 0x1C87#16, 0x1E93#16] ++
  [0x20C5#16, 0x231F#16, 0x25A4#16, 0x2858#16, 0x2B3D#16, 0x2E57#16, 0x31AB#16, 0x353B#16, 0x390D#16, 0x3D26#16] ++
  [0x4189#16, 0x463D#16, 0x4B48#16, 0x50AF#16, 0x567A#16, 0x5CAF#16, 0x6356#16, 0x6A77#16, 0x721B#16, 0x7A4B#16] ++
  [0x8000#16]

/-- The entries `ROM_TH[1..100]` (R194), in order. -/
def romThList : List Half :=
  [0x0022#16, 0x0025#16, 0x0027#16, 0x002A#16, 0x002D#16, 0x0030#16, 0x0034#16, 0x0038#16, 0x003C#16, 0x0040#16] ++
  [0x0044#16, 0x0049#16, 0x004E#16, 0x0054#16, 0x005A#16, 0x0060#16, 0x0067#16, 0x006F#16, 0x0077#16, 0x007F#16] ++
  [0x0088#16, 0x0092#16, 0x009C#16, 0x00A8#16, 0x00B4#16, 0x00C0#16, 0x00CE#16, 0x00DD#16, 0x00ED#16, 0x00FE#16] ++
  [0x0110#16, 0x0123#16, 0x0138#16, 0x014F#16, 0x0167#16, 0x0180#16, 0x019C#16, 0x01B9#16, 0x01D9#16, 0x01FB#16] ++
  [0x021F#16, 0x0246#16, 0x0270#16, 0x029D#16, 0x02CD#16, 0x0300#16, 0x0337#16, 0x0372#16, 0x03B2#16, 0x03F5#16] ++
  [0x043E#16, 0x048C#16, 0x04DF#16, 0x0539#16, 0x0599#16, 0x0600#16, 0x066E#16, 0x06E4#16, 0x0763#16, 0x07EA#16] ++
  [0x087C#16, 0x0917#16, 0x09BE#16, 0x0A71#16, 0x0B31#16, 0x0BFF#16, 0x0CDB#16, 0x0DC7#16, 0x0EC5#16, 0x0FD4#16] ++
  [0x10F7#16, 0x122E#16, 0x137C#16, 0x14E2#16, 0x1662#16, 0x17FD#16, 0x19B6#16, 0x1B8E#16, 0x1D89#16, 0x1FA7#16] ++
  [0x21ED#16, 0x245C#16, 0x26F8#16, 0x29C4#16, 0x2CC4#16, 0x2FFA#16, 0x336C#16, 0x371C#16, 0x3B11#16, 0x3F4E#16] ++
  [0x43D9#16, 0x48B8#16, 0x4DF0#16, 0x5388#16, 0x5987#16, 0x5FF4#16, 0x66D7#16, 0x6E38#16, 0x7621#16, 0x7E9C#16]

/-- `ROM_FWD`, 101 entries (R44, R192). -/
def romFwd : Vector Half 101 := ⟨romFwdList.toArray, rfl⟩

/-- `ROM_TH`, 100 entries; `ROM_TH[k]` stands at index `k - 1` (R44, R194). -/
def romTh : Vector Half 100 := ⟨romThList.toArray, rfl⟩

end Sys2Proof.Machine
end

