-- ==== Sys2Proof/Machine/Mapper.lean ====
section
/-! DEFINITION. The value mapper (spec 42_mapper.md): the exponential law in both directions, the two VariableValue
encodings, and the eleven `MAP.*` operations. Each writes `RESULT` and nothing else (R211). -/

namespace Sys2Proof.Machine

/-- `fwd(L) = ROM_FWD[L]`, level to gain (R192). -/
def fwd (l : Level) : Half := romFwd[l.val]

/-- `inv(G)`, gain to level (R195): 0 for the code 0, else the number of thresholds at or below the code. -/
def inv (g : Half) : Level :=
  if g = 0#16 then 0
  else ⟨romTh.toList.countP (fun t => t ≤ g),
    Nat.lt_succ_of_le (Nat.le_trans List.countP_le_length (Nat.le_of_eq (Vector.length_toList ..)))⟩

/-- `pdec(v) = min(v[15:8], 100)`: packed value to level (R197). -/
def pdec (v : Half) : Level := ⟨min (hiByte v).toNat 100, Nat.lt_succ_of_le (Nat.min_le_right ..)⟩

/-- `penc(L) = L << 8`: level to packed value (R197). -/
def penc (l : Level) : Half := levelHalf l <<< 8

/-- `rdec(v)`: raw-linear value to level (R198). -/
def rdec (v : Half) : Level :=
  if v.toNat < Config.winLo then 0
  else if h : v.toNat > Config.winHi then 100
  else ⟨v.toNat - Config.winLo, by simp only [Config.winLo, Config.winHi, Config.levelMax] at *; omega⟩

/-- `renc(L) = 0x100 + L`: level to raw-linear value (R198). -/
def renc (l : Level) : Half := BitVec.ofNat 16 (Config.winLo + l.val)

/-- `MAP.L2G h` (R200). -/
def execMapL2g (h : Half) (s : State) : Host.Outcome State Fault Refusal :=
  .next (setResult (fwd (lvl h)) s)

/-- `MAP.G2L h` (R201). -/
def execMapG2l (h : Half) (s : State) : Host.Outcome State Fault Refusal :=
  .next (setResult (levelHalf (inv h)) s)

/-- `MAP.P2L h` (R202). -/
def execMapP2l (h : Half) (s : State) : Host.Outcome State Fault Refusal :=
  .next (setResult (levelHalf (pdec h)) s)

/-- `MAP.L2P h` (R203). -/
def execMapL2p (h : Half) (s : State) : Host.Outcome State Fault Refusal :=
  .next (setResult (penc (lvl h)) s)

/-- `MAP.R2L h` (R204). -/
def execMapR2l (h : Half) (s : State) : Host.Outcome State Fault Refusal :=
  .next (setResult (levelHalf (rdec h)) s)

/-- `MAP.L2R h` (R205). -/
def execMapL2r (h : Half) (s : State) : Host.Outcome State Fault Refusal :=
  .next (setResult (renc (lvl h)) s)

/-- `MAP.P2G h` (R206). -/
def execMapP2g (h : Half) (s : State) : Host.Outcome State Fault Refusal :=
  .next (setResult (fwd (pdec h)) s)

/-- `MAP.G2P h` (R207). -/
def execMapG2p (h : Half) (s : State) : Host.Outcome State Fault Refusal :=
  .next (setResult (penc (inv h)) s)

/-- `MAP.R2G h` (R208). -/
def execMapR2g (h : Half) (s : State) : Host.Outcome State Fault Refusal :=
  .next (setResult (fwd (rdec h)) s)

/-- `MAP.G2R h` (R209). -/
def execMapG2r (h : Half) (s : State) : Host.Outcome State Fault Refusal :=
  .next (setResult (renc (inv h)) s)

/-- `MAP.LIN h` (R210). -/
def execMapLin (h : Half) (s : State) : Host.Outcome State Fault Refusal :=
  .next (setResult (levelHalf (lvl h)) s)

end Sys2Proof.Machine
end

