-- ==== Sys2Proof/Machine/Dispatch.lean ====
section
/-! DEFINITION. The meaning of each operation: one arm per constructor of `Instr` (spec 30_encoding.md R94). -/

namespace Sys2Proof.Machine

def exec (i : Instr) (s : State) : Host.Outcome State Fault Refusal :=
  match i with
  | .nop => Sys2Proof.Machine.execNop s
  | .feed b => Sys2Proof.Machine.execFeed b s
  | .encWreg reg data => Sys2Proof.Machine.execEncWreg reg data s
  | .encWvar value => Sys2Proof.Machine.execEncWvar value s
  | .encWvol vol => Sys2Proof.Machine.execEncWvol vol s
  | .encWtext n => Sys2Proof.Machine.execEncWtext n s
  | .encRvar count => Sys2Proof.Machine.execEncRvar count s
  | .mapL2g h => Sys2Proof.Machine.execMapL2g h s
  | .mapG2l h => Sys2Proof.Machine.execMapG2l h s
  | .mapP2l h => Sys2Proof.Machine.execMapP2l h s
  | .mapL2p h => Sys2Proof.Machine.execMapL2p h s
  | .mapR2l h => Sys2Proof.Machine.execMapR2l h s
  | .mapL2r h => Sys2Proof.Machine.execMapL2r h s
  | .mapP2g h => Sys2Proof.Machine.execMapP2g h s
  | .mapG2p h => Sys2Proof.Machine.execMapG2p h s
  | .mapR2g h => Sys2Proof.Machine.execMapR2g h s
  | .mapG2r h => Sys2Proof.Machine.execMapG2r h s
  | .mapLin h => Sys2Proof.Machine.execMapLin h s

end Sys2Proof.Machine
end

