-- ==== Sys2Proof/Machine/Window.lean ====
section
/-! DEFINITION. The register window (spec 20_memory.md R64 to R68, 10_state.md R45 to R55): the address map, what each word
reads and what a write to each word does. -/

namespace Sys2Proof.Machine

/-- What stands at an aligned offset of the window (R65). -/
inductive WindowWord where
  | cmd
  | vaddr
  | result
  | status
  | handlerEn
  | rxcnt
  | frame
  | rxvar
  | txlen
  | rxbuf (i : Fin 64)
  | txbuf (i : Fin 64)
  | textbuf (i : Fin 58)
  | reserved
  deriving DecidableEq, Repr

/-- The address map at offset `a` (R65, R66). -/
def windowWordAt (a : Nat) : WindowWord :=
  if a = 0x000 then .cmd
  else if a = 0x004 then .vaddr
  else if a = 0x008 then .result
  else if a = 0x00C then .status
  else if a = 0x010 then .handlerEn
  else if a = 0x014 then .rxcnt
  else if a = 0x018 then .frame
  else if a = 0x01C then .rxvar
  else if a = 0x020 then .txlen
  else if h : 0x100 ≤ a ∧ a ≤ 0x1FC then .rxbuf ⟨(a - 0x100) / 4, by omega⟩
  else if h : 0x200 ≤ a ∧ a ≤ 0x2FC then .txbuf ⟨(a - 0x200) / 4, by omega⟩
  else if h : 0x300 ≤ a ∧ a ≤ 0x3E4 then .textbuf ⟨(a - 0x300) / 4, by omega⟩
  else .reserved

/-- The address map (R65, R66). -/
def windowWord (off : Offset) : WindowWord := windowWordAt off.toNat

/-- The offset of a register or buffer word (R65, R66); the reserved words have many. -/
def offsetOf : WindowWord → Option Offset
  | .cmd => some 0x000#10
  | .vaddr => some 0x004#10
  | .result => some 0x008#10
  | .status => some 0x00C#10
  | .handlerEn => some 0x010#10
  | .rxcnt => some 0x014#10
  | .frame => some 0x018#10
  | .rxvar => some 0x01C#10
  | .txlen => some 0x020#10
  | .rxbuf i => some (BitVec.ofNat 10 (0x100 + 4 * i.val))
  | .txbuf i => some (BitVec.ofNat 10 (0x200 + 4 * i.val))
  | .textbuf i => some (BitVec.ofNat 10 (0x300 + 4 * i.val))
  | .reserved => none

/-- The word `FRAME` reads (R47): `{0:8, CMD:8, LEN:8, 0:1, FLEN:7}`. -/
def frameWord (s : State) : Word := 0#8 ++ s.fcmd ++ s.flenb ++ 0#1 ++ BitVec.ofNat 7 s.flen.val

/-- The word `RXVAR` reads (R48): `{RX_VADDR:16, RX_VDATA:16}`. -/
def rxvarWord (s : State) : Word := s.rxVaddr ++ s.rxVdata

/-- The value a word of the window reads (R46 to R55, R64, R66). Reading has no side effect (R67). -/
def readWord (w : WindowWord) (s : State) : Word :=
  match w with
  | .cmd => 0#32
  | .vaddr => s.vaddr.setWidth 32
  | .result => s.result.setWidth 32
  | .status => statusWord s
  | .handlerEn => s.handlerEn.setWidth 32
  | .rxcnt => BitVec.ofNat 32 s.rxcnt.val
  | .frame => frameWord s
  | .rxvar => rxvarWord s
  | .txlen => BitVec.ofNat 32 s.txlen.val
  | .rxbuf i => s.rxbuf[i.val].setWidth 32
  | .txbuf i => s.txbuf[i.val].setWidth 32
  | .textbuf i => s.textbuf[i.val].setWidth 32
  | .reserved => 0#32

/-- The value an accepted read at an offset returns. -/
def readWindow (off : Offset) (s : State) : Word := readWord (windowWord off) s

/-- What a write of `v` to a word other than `CMD` does (R46, R51, R52, R64, R66, R68, R232, R233): store the field, clear
W1C flags, or nothing. (A write to `CMD` executes an operation: Service.lean.) -/
def writeWord (w : WindowWord) (v : Word) (s : State) : State :=
  match w with
  | .cmd => s
  | .vaddr => setVaddr (v.extractLsb' 0 16) s
  | .result => s
  | .status => clearFlags v s
  | .handlerEn => setHandlerEn (v.extractLsb' 0 6) s
  | .rxcnt => s
  | .frame => s
  | .rxvar => s
  | .txlen => s
  | .rxbuf _ => s
  | .txbuf _ => s
  | .textbuf i => putText i (v.extractLsb' 0 8) s
  | .reserved => s

end Sys2Proof.Machine
end

