-- ==== Sys2Proof/Machine/Service.lean ====
section
/-! DEFINITION. Servicing what the outside delivers, one input at a time and each to completion (spec 20_memory.md R62, R63,
R73; 30_encoding.md R90, R95; 43_control.md R231 to R234; 70_reset_and_hazards.md R270). -/

namespace Sys2Proof.Machine

/-- The error response to a rejected access; a read returns data 0 (R63). -/
def errorResponse : Access → Response
  | .read _ _ => .readError 0#32
  | .write _ _ _ => .writeError

/-- A rejected access (R63, R244): error response, `BUSERR <- 1`, nothing else. -/
def rejectAccess (a : Access) (s : State) : State :=
  raise .busError (respond (errorResponse a) s)

/-- A write of `w` to `CMD` (R90, R54): execute the operation `w` encodes, or, for a reserved opcode, raise `IllegalOp` and
do nothing else (R95, R231, R241). -/
def commandWrite (w : Word) (s : State) : Host.Outcome State Fault Refusal :=
  match decode w with
  | .ok i => exec i s
  | .error (.reservedOpcode _) => .next (raise .illegalOp s)

/-- An accepted write (R68). The bus write completes normally whatever it does, a reserved opcode included (R231). -/
def serviceWrite (off : Offset) (v : Word) (s : State) : Host.Outcome State Fault Refusal :=
  match windowWord off with
  | .cmd => commandWrite v (respond .writeOk s)
  | w => .next (writeWord w v (respond .writeOk s))

/-- An accepted read: the word's value, no side effect (R67). -/
def serviceRead (off : Offset) (s : State) : State :=
  respond (.readOk (readWindow off s)) s

/-- One host access (R62, R63, R68). -/
def serviceAccess (a : Access) (s : State) : Host.Outcome State Fault Refusal :=
  if a.accepted then
    match a with
    | .read _ off => .next (serviceRead off s)
    | .write _ off v => serviceWrite off v s
  else .next (rejectAccess a s)

/-- One input: a host access, or a reset (R73, R270; log 6). -/
def serviceInput (i : Input) (s : State) : Host.Outcome State Fault Refusal :=
  match i with
  | .access a => serviceAccess a s
  | .reset => .next (applyReset s)

/-- Service the oldest input delivered; with none the block waits and nothing changes (R57, R259; log 2). -/
def serviceNext (s : State) : Host.Outcome State Fault Refusal :=
  match s.inputs with
  | [] => .next s
  | i :: rest => serviceInput i (setInputs rest s)

/-- The host access that issues a command word: a 32-bit write to `CMD` at offset `0x000` (R90, R101). -/
def commandInput (w : Word) : Input := .access (.write 4 0x000#10 w)

/-- The state with the command word `w` delivered as the very next input (log 4). -/
def deliverCommand (w : Word) (s : State) : State := setInputs (commandInput w :: s.inputs) s

end Sys2Proof.Machine
end

