-- ==== Sys2Proof/Machine/Step.lean ====
section
/-! DEFINITION. One step of the machine: one input serviced to completion (spec 20_memory.md R73). And the host's handle for
delivering a command word. -/

namespace Sys2Proof.Machine

/-- One step: the oldest input the outside has delivered is serviced, or nothing happens where there is none. -/
def step (s : State) : Host.Outcome State Fault Refusal := serviceNext s

/-- The state with the command word whose bits are `w` (the bits above `nbits` zero) as the next access: a host write to
`CMD`, which is where the FCGM's next operation comes from, since it fetches none (R21, R90; log 4, log 9). -/
def State.withFetchWord (s : State) (nbits w : Nat) : State :=
  deliverCommand (BitVec.ofNat 32 (w % 2 ^ nbits)) s

end Sys2Proof.Machine
end

