-- ==== Sys2Proof/Machine/HostProgram.lean ====
section
/-! DEFINITION. The host-program syntax of the spec as lists of inputs (spec 30_encoding.md R101, R102): what an operation
line, `wr`, `rd` and each pseudo-instruction stand for. -/

namespace Sys2Proof.Machine

/-- An operation line: the host write of its command word to `CMD` (R101). -/
def op (i : Instr) : Input := commandInput (encode i)

/-- `wr` to an offset: `MemWrite(off, 4, v)` (R101). -/
def wr (off : Offset) (v : Word) : Input := .access (.write 4 off v)

/-- `rd` of an offset: `MemRead(off, 4)` (R101). -/
def rd (off : Offset) : Input := .access (.read 4 off)

/-- `wr TEXTBUF[i], v` (R101, R66), for `i` from 0 to 57. R66 gives no word for a larger `i` and R101 does not say what such a
line stands for; DESIGN CHOICE: it is no line of the model's (log 21). -/
def wrText (i : Fin 58) (v : Word) : Input := wr (BitVec.ofNat 10 (0x300 + 4 * i.val)) v

/-- `FEEDS b0, ..., bk` (R102). -/
def feeds (bs : List Byte) : List Input := bs.map fun b => op (.feed b)

/-- `SETVA a` (R102). -/
def setva (a : Half) : Input := wr 0x004#10 (a.setWidth 32)

/-- `ACK` (R102). -/
def ack : Input := wr 0x00C#10 0x00000008#32

/-- `CLRERR` (R102). -/
def clrerr : Input := wr 0x00C#10 0x00000F00#32

/-- `TEXT "c0...c(n-1)"` (R102), for `n` up to 58. A longer text has no words to go to (R66), and R102 does not say what it
stands for; DESIGN CHOICE: it is no line of the model's (log 21). -/
def text (cs : List Byte) (fits : cs.length ≤ 58) : List Input :=
  cs.mapFinIdx fun i c h => wrText ⟨i, Nat.lt_of_lt_of_le h fits⟩ (c.setWidth 32)

/-- `SETH m` (R102). -/
def seth (m : BitVec 6) : Input := wr 0x010#10 (m.setWidth 32)

end Sys2Proof.Machine
end

