-- ==== Sys2Proof/Safety.lean ====
section
/-! DEFINITION. What claims about the FCGM are stated with: the decoder's invariant (spec 40_decoder.md R132, R136), runs,
well-formed wire frames (R138, 30_encoding.md R96), the frame `TXBUF` holds, and which accesses can raise an event. -/

namespace Sys2Proof.Machine

/-- R136(a) to (c): what the decoder's state says of `RXCNT` and of the bytes collected so far. -/
def DecoderInv (s : State) : Prop :=
  match s.dstate with
  | .idle => s.rxcnt.val = 0
  | .headerSeen => s.rxcnt.val = 1 ∧ s.rxbuf[0] = 0x5A#8
  | .collecting =>
    2 ≤ s.rxcnt.val ∧ s.rxcnt.val ≤ 63 ∧ s.rxbuf[0] = 0x5A#8 ∧ s.rxbuf[1] = 0xA5#8 ∧
      (3 ≤ s.rxcnt.val → s.rxbuf[2].toNat ≤ 61 ∧ s.rxcnt.val < s.rxbuf[2].toNat + 3)

/-- R136(d): while `FV = 1` the decoder is idle, the lengths agree and `RXBUF[0..FLEN-1]` is the emitted frame (its header,
its length byte, and the fields `emit` latched from it). -/
def FrameInv (s : State) : Prop :=
  s.fv = true →
    s.dstate = .idle ∧ s.flen.val = s.flenb.toNat + 3 ∧ 3 ≤ s.flen.val ∧ s.flen.val ≤ 64 ∧
      s.rxbuf[0] = 0x5A#8 ∧ s.rxbuf[1] = 0xA5#8 ∧ s.rxbuf[2] = s.flenb ∧
      (4 ≤ s.flen.val → s.rxbuf[3] = s.fcmd) ∧
      (s.pv = true → s.rxVaddr = halfOf s.rxbuf[4] s.rxbuf[5] ∧ s.rxVdata = halfOf s.rxbuf[6] s.rxbuf[7])

/-- R136(e): a dispatch is pending only while its frame is valid. -/
def PendingInv (s : State) : Prop := s.dp = true → s.fv = true

/-- R132, R28 to R33: the latched registers describe one emitted frame, or hold their reset values where none has been
emitted. -/
def LatchInv (s : State) : Prop :=
  (s.flen.val = 0 ∧ s.ccls = .writeRegister ∧ s.pv = false ∧ s.flenb = 0#8 ∧ s.fcmd = 0#8 ∧ s.rxVaddr = 0#16 ∧
      s.rxVdata = 0#16 ∧ s.fv = false) ∨
    (s.flen.val = s.flenb.toNat + 3 ∧
      (s.flen.val = 3 → s.ccls = .noCommand ∧ s.fcmd = 0#8) ∧
      (4 ≤ s.flen.val → s.ccls = classOf s.fcmd) ∧
      (s.pv = true ↔ (s.ccls = .writeVariable ∨ s.ccls = .readVariable) ∧ 8 ≤ s.flen.val) ∧
      (s.pv = false → s.rxVaddr = 0#16 ∧ s.rxVdata = 0#16))

/-- The invariant of the machine (R136, R132). -/
def FcgmInv (s : State) : Prop := DecoderInv s ∧ FrameInv s ∧ PendingInv s ∧ LatchInv s

/-- `k` steps of the machine (what `Host.Core.run` does with it, Laws/Step.lean). -/
def runSteps (k : Nat) (s : State) : Host.Outcome State Fault Refusal :=
  match k with
  | 0 => .next s
  | k + 1 =>
    match step s with
    | .next t => runSteps k t
    | .fault r => .fault r
    | .refused r => .refused r

/-- The inputs of a list serviced one after the other, each in the state the one before it left (R73). -/
def serviceAll (is : List Input) (s : State) : Host.Outcome State Fault Refusal :=
  match is with
  | [] => .next s
  | i :: is =>
    match serviceInput i s with
    | .next t => serviceAll is t
    | .fault r => .fault r
    | .refused r => .refused r

/-- A well-formed wire frame the decoder accepts: `[0x5A, 0xA5, L, ...]` with `L <= 61` and `L + 3` bytes (R96, R138). -/
def WireFrame (f : List Byte) : Prop :=
  ∃ (len : Byte) (rest : List Byte), f = 0x5A#8 :: 0xA5#8 :: len :: rest ∧ len.toNat ≤ 61 ∧ rest.length = len.toNat

/-- The frame `TXBUF[0..TXLEN-1]`. -/
def txFrame (s : State) : List Byte := s.txbuf.toList.take s.txlen.val

/-- The bytes `RXBUF[0..FLEN-1]`. -/
def rxFrame (s : State) : List Byte := s.rxbuf.toList.take s.flen.val

/-- The three registers and the buffer that hold the frame in progress are the same in two states. -/
def SameDecoder (s t : State) : Prop := t.dstate = s.dstate ∧ t.rxcnt = s.rxcnt ∧ t.rxbuf = s.rxbuf

/-- The seven latched frame registers are the same in two states (R132). -/
def SameLatched (s t : State) : Prop :=
  t.flen = s.flen ∧ t.flenb = s.flenb ∧ t.fcmd = s.fcmd ∧ t.ccls = s.ccls ∧ t.pv = s.pv ∧ t.rxVaddr = s.rxVaddr ∧
    t.rxVdata = s.rxVdata

/-- All 22 fields the spec gives the machine (10_state.md R20) are the same in two states. -/
def SameSpecState (s t : State) : Prop :=
  SameDecoder s t ∧ SameLatched s t ∧ t.fv = s.fv ∧ t.dp = s.dp ∧ t.drop = s.drop ∧ t.eerr = s.eerr ∧
    t.illop = s.illop ∧ t.buserr = s.buserr ∧ t.handlerEn = s.handlerEn ∧ t.vaddr = s.vaddr ∧ t.result = s.result ∧
    t.txlen = s.txlen ∧ t.txbuf = s.txbuf ∧ t.textbuf = s.textbuf

/-- The model's own fields are the same in two states. -/
def SameModelFields (s t : State) : Prop := t.inputs = s.inputs ∧ t.resp = s.resp ∧ t.resets = s.resets

/-- How many of the four event flags a step has set. -/
def eventsRaised (s t : State) : Nat :=
  ([Event.frameDiscard, .encodeLength, .illegalOp, .busError].filter fun e => !e.flag s && e.flag t).length

/-- An accepted write of the word `w` to `CMD`. -/
def IsCommand (i : Input) (w : Word) : Prop := i = .access (.write 4 0x000#10 w)

/-- The input is a `FEED` operation. -/
def IsFeed (i : Input) : Prop := ∃ w b, IsCommand i w ∧ decode w = .ok (.feed b)

/-- An access by which the host keeps to the uses the spec gives (R256): accepted, and, where it is a command, an assigned
opcode and a text that fits. Such an access raises no `BusError`, no `IllegalOp` and no `EncodeLength`. -/
def Orderly (i : Input) : Prop :=
  match i with
  | .reset => True
  | .access a =>
    a.accepted = true ∧
      ∀ off w, a = .write 4 off w → off = 0x000#10 →
        ∃ op, decode w = .ok op ∧ ∀ n, op = .encWtext n → n.toNat ≤ 58

/-- No event flag is set. -/
def NoEvents (s : State) : Prop := s.drop = false ∧ s.eerr = false ∧ s.illop = false ∧ s.buserr = false

end Sys2Proof.Machine
end

