-- ==== Sys2Proof/Certificates/Slice0/Obligations.lean ====
section
/-! DEFINITION. What is claimed of the FCGM, each as a proposition. The docstring of each names the rules of the spec it
rests on. -/

open Sys2Proof Sys2Proof.Machine

/-! ### The command word -/

/-- R91, R94, R101: decoding the word of an operation gives the operation back, every operand at every value, and the word
of the operation a word decodes to has its opcode. -/
def Obligations.DecodeEncodeRoundTrip : Prop :=
  (∀ i : Instr, i.wf = true → decode (encode i) = .ok i) ∧
    ∀ (w : Word) (i : Instr), decode w = .ok i → opcField (encode i) = opcField w

/-- R94: the opcode map, row by row, with the operands each row uses; every other opcode is reserved. -/
def Obligations.OpcodeMapIsTheTable : Prop :=
  (∀ (b : Byte) (h : Half),
    decode (commandWord 0x00#8 b h) = .ok .nop ∧
    decode (commandWord 0x01#8 b h) = .ok (.feed b) ∧
    decode (commandWord 0x10#8 b h) = .ok (.encWreg b h) ∧
    decode (commandWord 0x11#8 b h) = .ok (.encWvar h) ∧
    decode (commandWord 0x12#8 b h) = .ok (.encWvol h) ∧
    decode (commandWord 0x13#8 b h) = .ok (.encWtext b) ∧
    decode (commandWord 0x14#8 b h) = .ok (.encRvar b) ∧
    decode (commandWord 0x20#8 b h) = .ok (.mapL2g h) ∧
    decode (commandWord 0x21#8 b h) = .ok (.mapG2l h) ∧
    decode (commandWord 0x22#8 b h) = .ok (.mapP2l h) ∧
    decode (commandWord 0x23#8 b h) = .ok (.mapL2p h) ∧
    decode (commandWord 0x24#8 b h) = .ok (.mapR2l h) ∧
    decode (commandWord 0x25#8 b h) = .ok (.mapL2r h) ∧
    decode (commandWord 0x26#8 b h) = .ok (.mapP2g h) ∧
    decode (commandWord 0x27#8 b h) = .ok (.mapG2p h) ∧
    decode (commandWord 0x28#8 b h) = .ok (.mapR2g h) ∧
    decode (commandWord 0x29#8 b h) = .ok (.mapG2r h) ∧
    decode (commandWord 0x2A#8 b h) = .ok (.mapLin h)) ∧
  ∀ w : Word,
    opcField w ∉ ([0x00, 0x01, 0x10, 0x11, 0x12, 0x13, 0x14, 0x20, 0x21, 0x22, 0x23, 0x24, 0x25, 0x26, 0x27, 0x28, 0x29,
        0x2A] : List Byte) →
      decode w = .error (.reservedOpcode (opcField w))

/-- R95, R231: the reserved opcodes are the 238 values of three ranges, and writing a word with one of them to `CMD`
performs no operation: `ILLOP` becomes 1, the bus write completes normally and nothing else changes. -/
def Obligations.ReservedOpcodeOnlySetsIllop : Prop :=
  ((List.range 256).filter fun o =>
      (0x02 ≤ o && o ≤ 0x0F) || (0x15 ≤ o && o ≤ 0x1F) || (0x2B ≤ o && o ≤ 0xFF)).length = 238 ∧
  ∀ w : Word,
    (((0x02 ≤ (opcField w).toNat ∧ (opcField w).toNat ≤ 0x0F) ∨ (0x15 ≤ (opcField w).toNat ∧ (opcField w).toNat ≤ 0x1F) ∨
        (0x2B ≤ (opcField w).toNat ∧ (opcField w).toNat ≤ 0xFF)) ↔
      ∀ i, decode w ≠ .ok i) ∧
    ∀ (s : State) (rest : List Input), s.inputs = .access (.write 4 0x000#10 w) :: rest → (∀ i, decode w ≠ .ok i) →
      step s = .next { s with inputs := rest, resp := some .writeOk, illop := true }

/-- R93: a field an operation does not use has no effect on what the word decodes to, and no encoding is illegal because of
it: whether a word names an operation is decided by its opcode. -/
def Obligations.UnusedFieldsAreIgnored : Prop :=
  (∀ (b b' : Byte) (h h' : Half),
    decode (commandWord 0x00#8 b h) = decode (commandWord 0x00#8 b' h') ∧
    (∀ o ∈ ([0x01, 0x13, 0x14] : List Byte), decode (commandWord o b h) = decode (commandWord o b h')) ∧
    (∀ o ∈ ([0x11, 0x12, 0x20, 0x21, 0x22, 0x23, 0x24, 0x25, 0x26, 0x27, 0x28, 0x29, 0x2A] : List Byte),
      decode (commandWord o b h) = decode (commandWord o b' h))) ∧
  ∀ (o b b' : Byte) (h h' : Half),
    (∃ i, decode (commandWord o b h) = .ok i) → ∃ i, decode (commandWord o b' h') = .ok i

/-- R103: the words the spec writes out are the words of the operations it gives them for, and decode to them. -/
def Obligations.WrittenWordsDecode : Prop :=
  ∀ p ∈ ([(.feed 0x5A#8, 0x015A0000#32), (.encWreg 0x03#8 0x1234#16, 0x10031234#32), (.encWvar 0x3200#16, 0x11003200#32),
      (.encWvol 50#16, 0x12000032#32), (.encWvol (BitVec.ofInt 16 (-5)), 0x1200FFFB#32), (.encWtext 5#8, 0x13050000#32),
      (.encRvar 1#8, 0x14010000#32), (.mapP2g 0x3200#16, 0x26003200#32), (.nop, 0x00000000#32)] : List (Instr × Word)),
    encode p.1 = p.2 ∧ decode p.2 = .ok p.1

/-- R90, R54: a 32-bit write of a word to `CMD` executes the operation the word decodes to, in the state in which the access
has been taken from the inputs and answered, and stores nothing else. -/
def Obligations.StepRunsTheDecodedOperation : Prop :=
  ∀ (s : State) (rest : List Input) (w : Word) (i : Instr),
    s.inputs = .access (.write 4 0x000#10 w) :: rest → decode w = .ok i →
      step s = exec i { s with inputs := rest, resp := some .writeOk }

/-! ### The frame decoder -/

/-- R122 (with R121): `FEED` in `Idle`. -/
def Obligations.FeedInIdleAcceptsOnlyTheFirstHeaderByte : Prop :=
  ∀ (b : Byte) (s : State), s.dstate = .idle →
    (b = 0x5A#8 → exec (.feed b) s =
      .next { s with fv := false, dp := false, rxbuf := s.rxbuf.set 0 b, rxcnt := 1, dstate := .headerSeen }) ∧
    (b ≠ 0x5A#8 → exec (.feed b) s = .next { s with fv := false, dp := false })

/-- R123 (with R121): `FEED` in `HeaderSeen`; a wrong byte is consumed, a second `0x5A` included. -/
def Obligations.FeedInHeaderSeenAcceptsOnlyTheSecondHeaderByte : Prop :=
  ∀ (b : Byte) (s : State), s.dstate = .headerSeen →
    (b = 0xA5#8 → exec (.feed b) s =
      .next { s with fv := false, dp := false, rxbuf := s.rxbuf.set 1 b, rxcnt := 2, dstate := .collecting }) ∧
    (b ≠ 0xA5#8 → exec (.feed b) s = .next { s with fv := false, dp := false, rxcnt := 0, dstate := .idle })

/-- R124, R125, R126 (with R121): `FEED` in `Collecting` with room: the byte is appended, then the frame is discarded,
completed, or collected further. On the states the decoder's rules reach, the discard comes only on the length byte and
completion exactly at the expected length. -/
def Obligations.FeedInCollectingChecksLengthAndCompletes : Prop :=
  ∀ (b : Byte) (s : State) (n : Count) (buf : Vector Byte 64) (room : s.rxcnt.val < 64), s.dstate = .collecting →
    n.val = s.rxcnt.val + 1 → buf = s.rxbuf.set s.rxcnt.val b →
      (buf[2].toNat + 3 > 64 → exec (.feed b) s =
        .next { s with fv := false, dp := false, rxbuf := buf, drop := true, rxcnt := 0, dstate := .idle }) ∧
      (buf[2].toNat + 3 ≤ 64 → n.val ≥ buf[2].toNat + 3 → exec (.feed b) s =
        .next (emit n { s with fv := false, dp := false, rxbuf := buf })) ∧
      (n.val < buf[2].toNat + 3 → buf[2].toNat + 3 ≤ 64 → exec (.feed b) s =
        .next { s with fv := false, dp := false, rxbuf := buf, rxcnt := n }) ∧
      (buf[2].toNat + 3 > 64 ↔ 62 ≤ buf[2].toNat) ∧
      (DecoderInv s → 3 ≤ n.val ∧ (buf[2].toNat + 3 > 64 → n.val = 3) ∧
        (n.val ≥ buf[2].toNat + 3 ↔ n.val = buf[2].toNat + 3))

/-- R127 (with R121): the capacity guard drops the byte and discards the frame, and it cannot fire on the states the
decoder's rules reach. -/
def Obligations.CapacityGuardDiscardsAndIsDead : Prop :=
  ∀ (b : Byte) (s : State), s.dstate = .collecting → s.rxcnt.val = 64 →
    exec (.feed b) s = .next { s with fv := false, dp := false, drop := true, rxcnt := 0, dstate := .idle } ∧
      ¬ DecoderInv s

/-- R130 (with R131): what `emit(n)` writes for a frame of `n` bytes, each register; nothing else changes, `RXBUF`
included. -/
def Obligations.EmitLatchesTheFrame : Prop :=
  ∀ (n : Count) (s : State) (c : Byte), 3 ≤ n.val → c = s.rxbuf[3] →
    ∃ t : State, t = emit n s ∧
      t.flen = n ∧ t.flenb = s.rxbuf[2] ∧
      (n.val = 3 → t.fcmd = 0x00#8 ∧ t.ccls.code = 5#3) ∧
      (n.val ≠ 3 → t.fcmd = c ∧
        (c = 0x80#8 → t.ccls.code = 0#3) ∧ (c = 0x81#8 → t.ccls.code = 1#3) ∧ (c = 0x82#8 → t.ccls.code = 2#3) ∧
        (c = 0x83#8 → t.ccls.code = 3#3) ∧ ((c.toNat < 0x80 ∨ 0x83 < c.toNat) → t.ccls.code = 4#3)) ∧
      (t.pv = true ↔ (t.ccls.code = 2#3 ∨ t.ccls.code = 3#3) ∧ 8 ≤ n.val) ∧
      (t.pv = true → t.rxVaddr = s.rxbuf[4] ++ s.rxbuf[5] ∧ t.rxVdata = s.rxbuf[6] ++ s.rxbuf[7]) ∧
      (t.pv = false → t.rxVaddr = 0x0000#16 ∧ t.rxVdata = 0x0000#16) ∧
      t.fv = true ∧ t.dp = s.handlerEn.getLsbD t.ccls.code.toNat ∧ t.rxcnt = 0 ∧ t.dstate = .idle ∧
      t = { s with
        flen := t.flen, flenb := t.flenb, fcmd := t.fcmd, ccls := t.ccls, pv := t.pv, rxVaddr := t.rxVaddr,
        rxVdata := t.rxVdata, fv := t.fv, dp := t.dp, rxcnt := t.rxcnt, dstate := t.dstate }

/-- R140 to R145: on the byte that completes a frame, a `FEED` latches what the frame's class says, for each of the six
classes, raises no event, and asserts `irq` exactly where the class's handler is registered. -/
def Obligations.CompletingFeedClassifiesAndDispatches : Prop :=
  ∀ (b : Byte) (s : State) (n : Nat) (buf : Vector Byte 64) (room : s.rxcnt.val < 64), s.dstate = .collecting →
    DecoderInv s → n = s.rxcnt.val + 1 → buf = s.rxbuf.set s.rxcnt.val b → buf[2].toNat + 3 = n →
      ∃ t : State, exec (.feed b) s = .next t ∧ t.fv = true ∧ t.flen.val = n ∧ t.rxbuf = buf ∧ t.irq = t.dp ∧
        t.drop = s.drop ∧ t.eerr = s.eerr ∧ t.illop = s.illop ∧ t.buserr = s.buserr ∧
        (n = 3 → t.ccls = .noCommand ∧ t.fcmd = 0#8 ∧ t.pv = false ∧ t.rxVaddr = 0#16 ∧ t.rxVdata = 0#16 ∧
          t.dp = s.handlerEn.getLsbD 5) ∧
        (4 ≤ n → t.fcmd = buf[3] ∧
          (buf[3] = 0x80#8 → t.ccls = .writeRegister ∧ t.pv = false ∧ t.rxVaddr = 0#16 ∧ t.rxVdata = 0#16 ∧
            t.dp = s.handlerEn.getLsbD 0) ∧
          (buf[3] = 0x81#8 → t.ccls = .readRtc ∧ t.pv = false ∧ t.rxVaddr = 0#16 ∧ t.rxVdata = 0#16 ∧
            t.dp = s.handlerEn.getLsbD 1) ∧
          (buf[3] = 0x82#8 → t.ccls = .writeVariable ∧ t.dp = s.handlerEn.getLsbD 2) ∧
          (buf[3] = 0x83#8 → t.ccls = .readVariable ∧ t.dp = s.handlerEn.getLsbD 3) ∧
          (buf[3] = 0x82#8 ∨ buf[3] = 0x83#8 →
            (8 ≤ n → t.pv = true ∧ t.rxVaddr = buf[4] ++ buf[5] ∧ t.rxVdata = buf[6] ++ buf[7]) ∧
            (n < 8 → t.pv = false ∧ t.rxVaddr = 0#16 ∧ t.rxVdata = 0#16)) ∧
          (buf[3].toNat < 0x80 ∨ 0x83 < buf[3].toNat → t.ccls = .unknown ∧ t.pv = false ∧ t.rxVaddr = 0#16 ∧
            t.rxVdata = 0#16 ∧ t.dp = s.handlerEn.getLsbD 4))

/-- R129: every `FEED` completes, whatever the state and the byte, and emits at most one frame: the one whose last byte it
receives. -/
def Obligations.EveryFeedCompletesWithAtMostItsOwnFrame : Prop :=
  ∀ (b : Byte) (s : State), ∃ t : State, exec (.feed b) s = .next t ∧
    (t.fv = true → s.dstate = .collecting ∧ t.dstate = .idle ∧ t.flen.val = s.rxcnt.val + 1 ∧
      t.rxbuf[s.rxcnt.val]? = some b)

/-- R120's frame: what `FEED` leaves alone. Where it stores a byte, the element is 0 in `Idle`, 1 in `HeaderSeen`, `RXCNT` in
`Collecting`; a byte that is discarded as noise, resynchronises or meets the guard stores nothing. The latched registers
change only with an emit, the other event flags and all other registers never, and `DROP` is never cleared. -/
def Obligations.FeedFrame : Prop :=
  ∀ (b : Byte) (s t : State), exec (.feed b) s = .next t →
    (∀ i : Fin 64,
      (s.dstate = .idle → i.val ≠ 0 → t.rxbuf[i.val] = s.rxbuf[i.val]) ∧
      (s.dstate = .headerSeen → i.val ≠ 1 → t.rxbuf[i.val] = s.rxbuf[i.val]) ∧
      (s.dstate = .collecting → i.val ≠ s.rxcnt.val → t.rxbuf[i.val] = s.rxbuf[i.val])) ∧
    ((s.dstate = .idle ∧ b ≠ 0x5A#8) ∨ (s.dstate = .headerSeen ∧ b ≠ 0xA5#8) ∨
        (s.dstate = .collecting ∧ s.rxcnt.val = 64) → t.rxbuf = s.rxbuf) ∧
    (t.fv = false → SameLatched s t ∧ t.dp = false) ∧
    (s.drop = true → t.drop = true) ∧
    t.eerr = s.eerr ∧ t.illop = s.illop ∧ t.buserr = s.buserr ∧ t.handlerEn = s.handlerEn ∧ t.vaddr = s.vaddr ∧
    t.result = s.result ∧ t.txlen = s.txlen ∧ t.txbuf = s.txbuf ∧ t.textbuf = s.textbuf ∧ SameModelFields s t

/-- R128: no input other than a `FEED` and reset changes `DSTATE`, `RXCNT` or `RXBUF`, for any number of inputs. -/
def Obligations.OnlyFeedAndResetMoveTheDecoder : Prop :=
  (∀ s t : State, step s = .next t →
    SameDecoder s t ∨ ∃ i rest, s.inputs = i :: rest ∧ (i = .reset ∨ IsFeed i)) ∧
  ∀ (k : Nat) (s t : State), (∀ i ∈ s.inputs, i ≠ .reset ∧ ¬ IsFeed i) → runSteps k s = .next t → SameDecoder s t

/-- R132: the seven latched frame registers change only at an emit and at reset. -/
def Obligations.LatchedRegistersChangeOnlyAtEmitOrReset : Prop :=
  ∀ s t : State, step s = .next t → ¬ SameLatched s t →
    (∃ rest, s.inputs = .reset :: rest) ∨
      ∃ (i : Input) (rest : List Input) (u : State), s.inputs = i :: rest ∧ IsFeed i ∧ t = emit t.flen u ∧ t.fv = true

/-- The invariant holds after reset (R136, R270), whatever the unspecified buffer contents are. -/
def Obligations.ResetStateMeetsTheInvariant : Prop := FcgmInv State.reset

/-- R136, R132: every step keeps the invariant, from every state that meets it. -/
def Obligations.StepKeepsTheInvariant : Prop :=
  ∀ s t : State, FcgmInv s → step s = .next t → FcgmInv t

/-- R138: in `Idle`, feeding the bytes of a well-formed frame emits exactly that frame, on its last byte, and no other frame
in between, whatever the state was otherwise; the inputs behind them are still to come. -/
def Obligations.IdleDecoderEmitsExactlyTheFrameFed : Prop :=
  ∀ (f : List Byte) (rest : List Input) (s : State),
    WireFrame f → s.dstate = .idle → s.inputs = feeds f ++ rest →
      (∃ t : State, runSteps f.length s = .next t ∧ t.fv = true ∧ t.dstate = .idle ∧ rxFrame t = f ∧
        t.flen.val = f.length ∧ t.inputs = rest) ∧
      ∀ (k : Nat) (u : State), 1 ≤ k → k < f.length → runSteps k s = .next u → u.fv = false ∧ u.dstate ≠ .idle

/-- R123, R122, R138: resynchronisation takes one byte. From `Idle`, a doubled first header byte does not start a frame: a
second header byte right behind it is noise; and a whole well-formed frame behind it is emitted. -/
def Obligations.DoubledHeaderByteIsConsumed : Prop :=
  ∀ (s : State) (rest : List Input), s.dstate = .idle →
    (s.inputs = feeds [0x5A#8, 0x5A#8, 0xA5#8] ++ rest →
      ∃ t : State, runSteps 3 s = .next t ∧ t.dstate = .idle ∧ t.fv = false ∧ t.drop = s.drop ∧ t.inputs = rest) ∧
    ∀ f : List Byte, WireFrame f → s.inputs = feeds (0x5A#8 :: 0x5A#8 :: f) ++ rest →
      ∃ t : State, runSteps (f.length + 2) s = .next t ∧ t.fv = true ∧ t.dstate = .idle ∧ rxFrame t = f ∧
        t.flen.val = f.length ∧ t.inputs = rest

/-! ### The frame encoder -/

/-- R162 (with R160, R168): `ENC.WREG`, and that it changes nothing but `TXBUF[0..6]` and `TXLEN`. -/
def Obligations.EncWregBuildsTheRegisterFrame : Prop :=
  ∀ (reg : Byte) (data : Half) (s : State), decode (commandWord 0x10#8 reg data) = .ok (.encWreg reg data) ∧
    ∃ t : State, exec (.encWreg reg data) s = .next t ∧
    txFrame t = [0x5A#8, 0xA5#8, 0x04#8, 0x80#8, reg, data.extractLsb' 8 8, data.extractLsb' 0 8] ∧ t.txlen.val = 7 ∧
    (∀ i : Fin 64, 7 ≤ i.val → t.txbuf[i.val] = s.txbuf[i.val]) ∧ t = { s with txbuf := t.txbuf, txlen := t.txlen }

/-- R163 (with R160, R168): `ENC.WVAR`, every value unchanged, and its frame. -/
def Obligations.EncWvarBuildsTheVariableFrame : Prop :=
  ∀ (b : Byte) (value : Half) (s : State), decode (commandWord 0x11#8 b value) = .ok (.encWvar value) ∧
    ∃ t : State, exec (.encWvar value) s = .next t ∧
    txFrame t = [0x5A#8, 0xA5#8, 0x05#8, 0x82#8, s.vaddr.extractLsb' 8 8, s.vaddr.extractLsb' 0 8,
      value.extractLsb' 8 8, value.extractLsb' 0 8] ∧ t.txlen.val = 8 ∧
    (∀ i : Fin 64, 8 ≤ i.val → t.txbuf[i.val] = s.txbuf[i.val]) ∧ t = { s with txbuf := t.txbuf, txlen := t.txlen }

/-- R164, R169 (with R160): `ENC.WVOL`: the volume read as two's complement and clamped to 0 to 100, silently, in the high
data byte; and its frame. -/
def Obligations.EncWvolClampsAndPacksTheVolume : Prop :=
  ∀ (b : Byte) (vol : Half) (s : State), decode (commandWord 0x12#8 b vol) = .ok (.encWvol vol) ∧
    ∃ (t : State) (v : Byte), exec (.encWvol vol) s = .next t ∧
    (v.toNat : Int) = max 0 (min 100 vol.toInt) ∧
    txFrame t = [0x5A#8, 0xA5#8, 0x05#8, 0x82#8, s.vaddr.extractLsb' 8 8, s.vaddr.extractLsb' 0 8, v, 0x00#8] ∧
    t.txlen.val = 8 ∧
    (∀ i : Fin 64, 8 ≤ i.val → t.txbuf[i.val] = s.txbuf[i.val]) ∧ t = { s with txbuf := t.txbuf, txlen := t.txlen }

/-- R165, R166 (with R160): `ENC.WTEXT n`, with its frame: for `n <= 58` the text frame, for `n > 58` nothing is built:
`TXLEN <- 0`, `EERR <- 1`, no other state changes. -/
def Obligations.EncWtextBuildsTheTextFrameOrRaises : Prop :=
  ∀ (n : Byte) (h : Half) (s : State), decode (commandWord 0x13#8 n h) = .ok (.encWtext n) ∧
    (n.toNat ≤ 58 → ∃ t : State, exec (.encWtext n) s = .next t ∧
      txFrame t = [0x5A#8, 0xA5#8, BitVec.ofNat 8 (n.toNat + 3), 0x82#8, s.vaddr.extractLsb' 8 8,
        s.vaddr.extractLsb' 0 8] ++ s.textbuf.toList.take n.toNat ∧ t.txlen.val = n.toNat + 6 ∧
      (∀ i : Fin 64, n.toNat + 6 ≤ i.val → t.txbuf[i.val] = s.txbuf[i.val]) ∧
      t = { s with txbuf := t.txbuf, txlen := t.txlen }) ∧
    (58 < n.toNat → exec (.encWtext n) s = .next { s with txlen := 0, eerr := true })

/-- R167 (with R160): `ENC.RVAR`, every count unchanged, and its frame. -/
def Obligations.EncRvarBuildsTheReadRequest : Prop :=
  ∀ (count : Byte) (h : Half) (s : State), decode (commandWord 0x14#8 count h) = .ok (.encRvar count) ∧
    ∃ t : State, exec (.encRvar count) s = .next t ∧
    txFrame t = [0x5A#8, 0xA5#8, 0x04#8, 0x83#8, s.vaddr.extractLsb' 8 8, s.vaddr.extractLsb' 0 8, count] ∧
    t.txlen.val = 7 ∧
    (∀ i : Fin 64, 7 ≤ i.val → t.txbuf[i.val] = s.txbuf[i.val]) ∧ t = { s with txbuf := t.txbuf, txlen := t.txlen }

/-- R161: the encoder is pure. From two states that agree on `VADDR` (where the operation is not `ENC.WREG`) and on
`TEXTBUF` (where it is `ENC.WTEXT`), whatever else they hold, an encoder operation builds the same frame; it writes nothing but `TXBUF`, `TXLEN` and, for a text that does not fit, `EERR`. -/
def Obligations.EncoderIsPure : Prop :=
  ∀ (i : Instr), ((∃ r d, i = .encWreg r d) ∨ (∃ v, i = .encWvar v) ∨ (∃ v, i = .encWvol v) ∨ (∃ n, i = .encWtext n) ∨
      (∃ c, i = .encRvar c)) →
    ∀ s u : State, ((∃ r d, i = .encWreg r d) ∨ s.vaddr = u.vaddr) → ((∃ n, i = .encWtext n) → s.textbuf = u.textbuf) →
      ∃ s' u' : State, exec i s = .next s' ∧ exec i u = .next u' ∧ txFrame s' = txFrame u' ∧ s'.txlen = u'.txlen ∧
        (s' = { s with txbuf := s'.txbuf, txlen := s'.txlen } ∨
          (∃ n, i = .encWtext n ∧ 58 < n.toNat) ∧ s' = { s with txlen := 0, eerr := true })

/-- R160, R170: every frame an encoder operation builds is a well-formed wire frame with `LEN = TXLEN - 3` from 3 to 61 and
one of the command bytes `0x80`, `0x82`, `0x83`. -/
def Obligations.BuiltFramesAreWellFormed : Prop :=
  ∀ (i : Instr) (s t : State), ((∃ r d, i = .encWreg r d) ∨ (∃ v, i = .encWvar v) ∨ (∃ v, i = .encWvol v) ∨
      (∃ n, i = .encWtext n ∧ n.toNat ≤ 58) ∨ (∃ c, i = .encRvar c)) → exec i s = .next t →
    WireFrame (txFrame t) ∧ t.txbuf[0] = 0x5A#8 ∧ t.txbuf[1] = 0xA5#8 ∧ t.txbuf[2].toNat + 3 = t.txlen.val ∧
      3 ≤ t.txbuf[2].toNat ∧ t.txbuf[2].toNat ≤ 61 ∧
      (t.txbuf[3] = 0x80#8 ∨ t.txbuf[3] = 0x82#8 ∨ t.txbuf[3] = 0x83#8)

/-- R171: every frame the encoder builds, fed byte by byte from `Idle`, is emitted as exactly that frame, with the class of
its operation; the frames of `ENC.WVAR` and `ENC.WVOL` decode to the address and the value that were encoded. -/
def Obligations.EncodedFramesDecode : Prop :=
  ∀ (i : Instr) (s t u : State) (rest : List Input), ((∃ r d, i = .encWreg r d) ∨ (∃ v, i = .encWvar v) ∨
      (∃ v, i = .encWvol v) ∨ (∃ n, i = .encWtext n ∧ n.toNat ≤ 58) ∨ (∃ c, i = .encRvar c)) → exec i s = .next t →
    u.dstate = .idle → u.inputs = feeds (txFrame t) ++ rest →
      ∃ v : State, runSteps t.txlen.val u = .next v ∧ v.fv = true ∧ rxFrame v = txFrame t ∧ v.inputs = rest ∧
        ((∃ r d, i = .encWreg r d) → v.ccls = .writeRegister) ∧
        ((∃ x, i = .encWvar x) ∨ (∃ x, i = .encWvol x) ∨ (∃ n, i = .encWtext n) → v.ccls = .writeVariable) ∧
        ((∃ c, i = .encRvar c) → v.ccls = .readVariable) ∧
        (∀ x, i = .encWvar x → v.pv = true ∧ v.rxVaddr = s.vaddr ∧ v.rxVdata = x) ∧
        ∀ x, i = .encWvol x → v.pv = true ∧ v.rxVaddr = s.vaddr ∧
          (v.rxVdata.toNat : Int) = 256 * max 0 (min 100 x.toInt)

/-! ### The value mapper -/

/-- R200: `MAP.L2G`, its command word and its clamped inputs. -/
def Obligations.MapL2gReadsTheForwardTable : Prop :=
  ∀ (b : Byte) (h : Half) (s : State), decode (commandWord 0x20#8 b h) = .ok (.mapL2g h) ∧
    (∀ l : Fin 101, (l.val : Int) = max 0 (min 100 h.toInt) →
      exec (.mapL2g h) s = .next { s with result := romFwd[l.val] }) ∧
    (h = 0#16 ∨ h.toInt < 0 → exec (.mapL2g h) s = .next { s with result := 0x0000#16 }) ∧
    (100 ≤ h.toInt → exec (.mapL2g h) s = .next { s with result := 0x8000#16 })

/-- R201: `MAP.G2L`: the level is the number of thresholds the gain code reaches; the corners of its range. -/
def Obligations.MapG2lCountsThresholds : Prop :=
  ∀ (b : Byte) (h : Half) (s : State), decode (commandWord 0x21#8 b h) = .ok (.mapG2l h) ∧ ∃ l : Nat, l ≤ 100 ∧
    exec (.mapG2l h) s = .next { s with result := BitVec.ofNat 16 l } ∧
    (∀ k : Fin 100, romTh[k.val] ≤ h ↔ k.val + 1 ≤ l) ∧
    (h.toNat ≤ 33 → l = 0) ∧ (32412 ≤ h.toNat → l = 100) ∧ (0x8000 ≤ h.toNat → l = 100) ∧ (h.toNat = 1048 → l = 50)

/-- R202, R204 (with R197, R198): `MAP.P2L` and `MAP.R2L`. -/
def Obligations.MapToLevelClampsThePackedAndRawValue : Prop :=
  ∀ (b : Byte) (h : Half) (s : State),
    decode (commandWord 0x22#8 b h) = .ok (.mapP2l h) ∧ decode (commandWord 0x24#8 b h) = .ok (.mapR2l h) ∧
    exec (.mapP2l h) s = .next { s with result := BitVec.ofNat 16 (min (h.toNat / 256) 100) } ∧
    exec (.mapR2l h) s = .next { s with result := BitVec.ofNat 16 (min (h.toNat - 0x100) 100) }

/-- R203, R205, R210 (with R197, R198, R13): `MAP.L2P`, `MAP.L2R` and `MAP.LIN` on the level clamped from a signed
half-word. -/
def Obligations.MapFromLevelPacksTheClampedLevel : Prop :=
  ∀ (b : Byte) (h : Half) (s : State) (l : Nat), (l : Int) = max 0 (min 100 h.toInt) →
    decode (commandWord 0x23#8 b h) = .ok (.mapL2p h) ∧ decode (commandWord 0x25#8 b h) = .ok (.mapL2r h) ∧
    decode (commandWord 0x2A#8 b h) = .ok (.mapLin h) ∧
    exec (.mapL2p h) s = .next { s with result := BitVec.ofNat 16 (256 * l) } ∧
    exec (.mapL2r h) s = .next { s with result := BitVec.ofNat 16 (0x100 + l) } ∧
    exec (.mapLin h) s = .next { s with result := BitVec.ofNat 16 l }

/-- R206, R208: `MAP.P2G` and `MAP.R2G`, with the corners of their ranges. -/
def Obligations.MapToGainReadsTheForwardTable : Prop :=
  ∀ (b : Byte) (h : Half) (s : State),
    decode (commandWord 0x26#8 b h) = .ok (.mapP2g h) ∧ decode (commandWord 0x28#8 b h) = .ok (.mapR2g h) ∧
    (∀ l : Fin 101, l.val = min (h.toNat / 256) 100 → exec (.mapP2g h) s = .next { s with result := romFwd[l.val] }) ∧
    (∀ l : Fin 101, l.val = min (h.toNat - 0x100) 100 → exec (.mapR2g h) s = .next { s with result := romFwd[l.val] }) ∧
    (h.toNat ≤ 0x00FF → exec (.mapP2g h) s = .next { s with result := 0x0000#16 }) ∧
    (0x6400 ≤ h.toNat → exec (.mapP2g h) s = .next { s with result := 0x8000#16 }) ∧
    (h.toNat ≤ 0x0100 → exec (.mapR2g h) s = .next { s with result := 0x0000#16 }) ∧
    (0x0164 ≤ h.toNat → exec (.mapR2g h) s = .next { s with result := 0x8000#16 })

/-- R207, R209: `MAP.G2P` and `MAP.G2R`: the level the gain code reaches (R195), packed or raw-linear; the corners of their
ranges. -/
def Obligations.MapFromGainPacksTheLevelReached : Prop :=
  ∀ (b : Byte) (h : Half) (s : State),
    decode (commandWord 0x27#8 b h) = .ok (.mapG2p h) ∧ decode (commandWord 0x29#8 b h) = .ok (.mapG2r h) ∧
    ∃ l : Nat, l ≤ 100 ∧ (∀ k : Fin 100, romTh[k.val] ≤ h ↔ k.val + 1 ≤ l) ∧
    exec (.mapG2p h) s = .next { s with result := BitVec.ofNat 16 (256 * l) } ∧
    exec (.mapG2r h) s = .next { s with result := BitVec.ofNat 16 (0x100 + l) } ∧
    (h = 0#16 → l = 0) ∧ (0x8000 ≤ h.toNat → l = 100)

/-- R211: every mapper operation completes, writes `RESULT` and nothing else, and what it writes depends on its operand
alone. -/
def Obligations.MapperIsPure : Prop :=
  ∀ (h : Half) (i : Instr), i ∈ [Instr.mapL2g h, .mapG2l h, .mapP2l h, .mapL2p h, .mapR2l h, .mapL2r h, .mapP2g h,
      .mapG2p h, .mapR2g h, .mapG2r h, .mapLin h] →
    ∃ v : Half, ∀ s : State, exec i s = .next { s with result := v }

/-- R192: `ROM_FWD` is the exponential law rounded to nearest and clamped at `0x8000`, over the real numbers, with the zero
floor; only level 100 is clamped; the entries are strictly increasing. -/
def Obligations.ForwardTableIsTheRoundedLaw : Prop :=
  (∀ l : Level, fwd l = romFwd[l.val]) ∧ romFwd[0].toNat = 0 ∧ romFwd[99].toNat = 31307 ∧
  (∀ l : Fin 101, 1 ≤ l.val →
    (romFwd[l.val].toNat : ℤ) = min 0x8000 (round (32768 * (2 : ℝ) ^ ((l.val : ℝ) / 10) / 1000))) ∧
  (∀ l : Fin 101, 1 ≤ l.val → l.val ≤ 99 → round (32768 * (2 : ℝ) ^ ((l.val : ℝ) / 10) / 1000) < 0x8000) ∧
  ∀ l m : Fin 101, l < m → romFwd[l.val].toNat < romFwd[m.val].toNat

/-- R194: `ROM_TH[k]` is the law at `k - 1/2` rounded up, over the real numbers, and so the smallest gain code whose level
is `k` or more; the entries are strictly increasing. -/
def Obligations.ThresholdTableIsTheLawRoundedUp : Prop :=
  (∀ k : Fin 100, (romTh[k.val].toNat : ℤ) = ⌈32768 * (2 : ℝ) ^ (((k.val : ℝ) + 1 - 1 / 2) / 10) / 1000⌉) ∧
  (∀ (k : Fin 100) (g : Half), k.val + 1 ≤ (inv g).val ↔ romTh[k.val].toNat ≤ g.toNat) ∧
  (∀ k m : Fin 100, k < m → romTh[k.val].toNat < romTh[m.val].toNat) ∧ romTh[0].toNat = 34 ∧ romTh[99].toNat = 32412

/-- R193, R195: the hardware form of the inverse law is the logarithmic law rounded to nearest and clamped to 0 to 100, over
the real numbers, for every one of the 65536 gain codes. -/
def Obligations.InverseIsTheRoundedLogarithm : Prop :=
  inv 0#16 = 0 ∧
  ∀ g : Half, g ≠ 0#16 →
    ((inv g).val : ℤ) = max 0 (min 100 (round (10 * Real.logb 2 (1000 * (g.toNat : ℝ) / 32768))))

/-- R196: the round trip from level to gain and back is exact, and both directions are monotone. -/
def Obligations.LevelGainRoundTripIsExact : Prop :=
  (∀ l : Level, inv (fwd l) = l) ∧ (∀ l m : Level, l ≤ m → fwd l ≤ fwd m) ∧ ∀ g h : Half, g ≤ h → inv g ≤ inv h

/-- R214: the compositions. Each two-step conversion is its two steps, and a packed or raw value survives a trip through
gain as its clamped level. -/
def Obligations.CompositionsAgree : Prop :=
  ∀ (v : Half) (s : State),
    (∀ (t : State), exec (.mapP2l v) s = .next t → exec (.mapP2g v) s = exec (.mapL2g t.result) t) ∧
    (∀ (t : State), exec (.mapR2l v) s = .next t → exec (.mapR2g v) s = exec (.mapL2g t.result) t) ∧
    (∀ (t : State), exec (.mapG2l v) s = .next t → exec (.mapG2p v) s = exec (.mapL2p t.result) t) ∧
    (∀ (t : State), exec (.mapG2l v) s = .next t → exec (.mapG2r v) s = exec (.mapL2r t.result) t) ∧
    (∀ (t : State), exec (.mapP2g v) s = .next t →
      exec (.mapG2p t.result) t = .next { s with result := BitVec.ofNat 16 (256 * min (v.toNat / 256) 100) }) ∧
    ∀ (t : State), exec (.mapR2g v) s = .next t →
      exec (.mapG2r t.result) t = .next { s with result := BitVec.ofNat 16 (0x100 + min (v.toNat - 0x100) 100) }

/-! ### Control operations, the register window and events -/

/-- R230: `NOP` completes and changes nothing, whatever its unused fields hold. -/
def Obligations.NopChangesNothing : Prop :=
  (∀ s : State, exec .nop s = .next s) ∧ ∀ (b : Byte) (h : Half), decode (commandWord 0x00#8 b h) = .ok .nop

/-- R62, R63, R244: an access of another width than 32 bits or at a misaligned offset gets an error response, reads 0, sets
`BUSERR` and changes nothing else. -/
def Obligations.RejectedAccessOnlySetsBuserr : Prop :=
  ∀ (s : State) (rest : List Input) (size : Nat) (off : Offset), size ≠ 4 ∨ off.toNat % 4 ≠ 0 →
    (s.inputs = .access (.read size off) :: rest →
      step s = .next { s with inputs := rest, resp := some (.readError 0#32), buserr := true }) ∧
    ∀ v : Word, s.inputs = .access (.write size off v) :: rest →
      step s = .next { s with inputs := rest, resp := some .writeError, buserr := true }

/-- R67 (with R62): an accepted read answers with the word at its offset and changes nothing else. -/
def Obligations.ReadsHaveNoSideEffect : Prop :=
  ∀ (s : State) (rest : List Input) (off : Offset), off.toNat % 4 = 0 → s.inputs = .access (.read 4 off) :: rest →
    step s = .next { s with inputs := rest, resp := some (.readOk (readWindow off s)) }

/-- R64: an accepted access at an offset that names no register and no buffer word reads 0 and ignores a write; it sets no
flag. -/
def Obligations.ReservedOffsetsReadZeroAndIgnoreWrites : Prop :=
  ∀ (s : State) (rest : List Input) (off : Offset), off.toNat % 4 = 0 →
    (0x024 ≤ off.toNat ∧ off.toNat ≤ 0x0FC) ∨ (0x3E8 ≤ off.toNat ∧ off.toNat ≤ 0x3FC) →
    (s.inputs = .access (.read 4 off) :: rest →
      step s = .next { s with inputs := rest, resp := some (.readOk 0#32) }) ∧
    ∀ v : Word, s.inputs = .access (.write 4 off v) :: rest →
      step s = .next { s with inputs := rest, resp := some .writeOk }

/-- R233, R46: a write to `STATUS` clears each W1C flag whose bit is 1 and changes nothing else; `irq` falls with `DP`. -/
def Obligations.StatusWriteClearsTheFlagsNamed : Prop :=
  ∀ (s : State) (rest : List Input) (w : Word), s.inputs = .access (.write 4 0x00C#10 w) :: rest →
    ∃ t : State, step s = .next t ∧
      t.dp = (s.dp && !w.getLsbD 3) ∧ t.drop = (s.drop && !w.getLsbD 8) ∧ t.eerr = (s.eerr && !w.getLsbD 9) ∧
      t.illop = (s.illop && !w.getLsbD 10) ∧ t.buserr = (s.buserr && !w.getLsbD 11) ∧
      (w.getLsbD 3 = true → t.irq = false) ∧
      t = { s with
        inputs := rest, resp := some .writeOk, dp := t.dp, drop := t.drop, eerr := t.eerr, illop := t.illop,
        buserr := t.buserr }

/-- R66, R68, R51, R52: what a write to each other word of the window does: `VADDR`, `HANDLER_EN` and the `TEXTBUF` words
take the low bits of the written value; the read-only words ignore it. -/
def Obligations.RegisterWritesStoreTheirField : Prop :=
  ∀ (s : State) (rest : List Input) (off : Offset) (v : Word), s.inputs = .access (.write 4 off v) :: rest →
    (off.toNat = 0x004 →
      step s = .next { s with inputs := rest, resp := some .writeOk, vaddr := BitVec.ofNat 16 (v.toNat % 2 ^ 16) }) ∧
    (off.toNat = 0x010 →
      step s = .next { s with inputs := rest, resp := some .writeOk, handlerEn := BitVec.ofNat 6 (v.toNat % 2 ^ 6) }) ∧
    (∀ i : Fin 58, off.toNat = 0x300 + 4 * i.val →
      step s = .next { s with
        inputs := rest, resp := some .writeOk, textbuf := s.textbuf.set i.val (BitVec.ofNat 8 (v.toNat % 2 ^ 8)) }) ∧
    (off.toNat = 0x008 ∨ (off.toNat % 4 = 0 ∧ 0x014 ≤ off.toNat ∧ off.toNat ≤ 0x020) ∨
        (∃ i : Fin 64, off.toNat = 0x100 + 4 * i.val ∨ off.toNat = 0x200 + 4 * i.val) →
      step s = .next { s with inputs := rest, resp := some .writeOk })

/-- R46 to R53, R54, R66: what each word of the window reads, as a number, field by field. -/
def Obligations.WindowReadsTheFields : Prop :=
  ∀ (off : Offset) (s : State),
    (off.toNat = 0x000 → (readWindow off s).toNat = 0) ∧
    (off.toNat = 0x004 → (readWindow off s).toNat = s.vaddr.toNat) ∧
    (off.toNat = 0x008 → (readWindow off s).toNat = s.result.toNat) ∧
    (off.toNat = 0x00C → (readWindow off s).toNat =
      s.dstate.code.toNat + 4 * s.fv.toNat + 8 * s.dp.toNat + 16 * s.ccls.code.toNat + 128 * s.pv.toNat +
        256 * s.drop.toNat + 512 * s.eerr.toNat + 1024 * s.illop.toNat + 2048 * s.buserr.toNat) ∧
    (off.toNat = 0x010 → (readWindow off s).toNat = s.handlerEn.toNat) ∧
    (off.toNat = 0x014 → (readWindow off s).toNat = s.rxcnt.val) ∧
    (off.toNat = 0x018 → (readWindow off s).toNat = s.flen.val + 256 * s.flenb.toNat + 65536 * s.fcmd.toNat) ∧
    (off.toNat = 0x01C → (readWindow off s).toNat = s.rxVdata.toNat + 65536 * s.rxVaddr.toNat) ∧
    (off.toNat = 0x020 → (readWindow off s).toNat = s.txlen.val) ∧
    (∀ i : Fin 64, off.toNat = 0x100 + 4 * i.val → (readWindow off s).toNat = s.rxbuf[i.val].toNat) ∧
    (∀ i : Fin 64, off.toNat = 0x200 + 4 * i.val → (readWindow off s).toNat = s.txbuf[i.val].toNat) ∧
    ∀ i : Fin 58, off.toNat = 0x300 + 4 * i.val → (readWindow off s).toNat = s.textbuf[i.val].toNat

/-- R57, R258: the host can read back all of the machine's state: two states that read alike at every offset agree on every
field the spec gives the machine. -/
def Obligations.HostReadsBackAllState : Prop :=
  ∀ s t : State, (∀ off : Offset, off.toNat % 4 = 0 → readWindow off s = readWindow off t) → SameSpecState s t

/-- R270, R271: what reset leaves, for every register whose reset value the spec gives, from any state; the inputs still to
come are serviced after it. (That reset keeps the inputs still to come is the model's choice, log 6.) -/
def Obligations.ResetLeavesTheTabulatedValues : Prop :=
  ∀ (s : State) (rest : List Input), s.inputs = .reset :: rest →
    ∃ t : State, step s = .next t ∧ t.inputs = rest ∧
      ∀ u : State, u = t ∨ u = State.reset →
        u.dstate = .idle ∧ u.rxcnt = 0 ∧ u.fv = false ∧ u.dp = false ∧ u.irq = false ∧ u.ccls = .writeRegister ∧
        u.pv = false ∧ u.flen = 0 ∧ u.flenb = 0#8 ∧ u.fcmd = 0x00#8 ∧ u.rxVaddr = 0x0000#16 ∧ u.rxVdata = 0x0000#16 ∧
        NoEvents u ∧ u.handlerEn = 0b000000#6 ∧ u.vaddr = 0x0000#16 ∧ u.result = 0x0000#16 ∧ u.txlen = 0 ∧
        readWindow 0x00C#10 u = 0#32 ∧ readWindow 0x018#10 u = 0#32 ∧ readWindow 0x01C#10 u = 0#32 ∧
        readWindow 0x014#10 u = 0#32 ∧ readWindow 0x020#10 u = 0#32 ∧ readWindow 0x010#10 u = 0#32 ∧
        readWindow 0x004#10 u = 0#32 ∧ readWindow 0x008#10 u = 0#32

/-- R12, R250: the FCGM has no trap and never stops: every step, from every state, gives a next state. -/
def Obligations.TheMachineNeverStops : Prop := ∀ s : State, ∃ t : State, step s = .next t

/-- R249, R240: every access raises at most one event, and which one: a rejected access `BusError`, a `CMD` write with a
reserved opcode `IllegalOp`, a `FEED` `FrameDiscard` (and then it emits no frame and sets no `DP`), `ENC.WTEXT`
`EncodeLength`. -/
def Obligations.EachAccessRaisesAtMostOneEvent : Prop :=
  ∀ (s t : State) (i : Input) (rest : List Input), s.inputs = i :: rest → step s = .next t →
    eventsRaised s t ≤ 1 ∧
    (s.buserr = false → t.buserr = true → ∃ a, i = .access a ∧ a.accepted = false) ∧
    (s.illop = false → t.illop = true → ∃ w o, IsCommand i w ∧ decode w = .error (.reservedOpcode o)) ∧
    (s.drop = false → t.drop = true → IsFeed i ∧ t.fv = false ∧ t.dp = false) ∧
    (s.eerr = false → t.eerr = true → ∃ w n, IsCommand i w ∧ decode w = .ok (.encWtext n) ∧ 58 < n.toNat)

/-- R56 (with R26, R27, R29, R34 to R37): every writer of every flag. `FV` is 1 after a `FEED` only where it emitted, and
after any other access only where it was 1; `DP` likewise, and only with the handler of the frame's class registered. A
set `FV` is cleared only by a `FEED` or reset, a set `DP` also by a `STATUS` write that names it. `PV` changes only in a `FEED` that
emits or at reset. `DROP` is set only by a `FEED`, `EERR` by `ENC.WTEXT` with `n > 58`, `ILLOP` by a reserved opcode, `BUSERR` by a
rejected access; each is cleared only by reset or a `STATUS` write that names it. -/
def Obligations.FlagsHaveOnlyTheirWriters : Prop :=
  ∀ (s t : State) (i : Input) (rest : List Input), s.inputs = i :: rest → step s = .next t →
    (t.fv = true → (IsFeed i ∧ ∃ n u, t = emit n u) ∨ (¬ IsFeed i ∧ i ≠ .reset ∧ s.fv = true)) ∧
    (t.dp = true → (IsFeed i ∧ t.fv = true ∧ s.handlerEn.getLsbD t.ccls.code.toNat = true) ∨
      (¬ IsFeed i ∧ i ≠ .reset ∧ s.dp = true)) ∧
    (s.fv = true → t.fv = false → IsFeed i ∨ i = .reset) ∧
    (s.dp = true → t.dp = false →
      IsFeed i ∨ i = .reset ∨ ∃ w : Word, i = .access (.write 4 0x00C#10 w) ∧ w.getLsbD 3 = true) ∧
    (t.pv ≠ s.pv → IsFeed i ∧ t.fv = true ∨ i = .reset) ∧
    (s.drop = false → t.drop = true → IsFeed i) ∧
    (s.eerr = false → t.eerr = true → ∃ w n, IsCommand i w ∧ decode w = .ok (.encWtext n) ∧ 58 < n.toNat) ∧
    (s.illop = false → t.illop = true → ∃ w o, IsCommand i w ∧ decode w = .error (.reservedOpcode o)) ∧
    (s.buserr = false → t.buserr = true → ∃ a, i = .access a ∧ a.accepted = false) ∧
    ∀ e : Event, e.flag s = true → e.flag t = false →
      i = .reset ∨ ∃ w : Word, i = .access (.write 4 0x00C#10 w) ∧ w.getLsbD e.cause = true

/-- R134, R246, R247, R251: dispatch. A `FEED` that emits leaves `irq` equal to the registration of the frame's class; a
`FEED` that does not emit leaves `irq` low; writing `HANDLER_EN` while a dispatch is pending changes neither `irq` nor the
frame. -/
def Obligations.IrqFollowsDispatch : Prop :=
  (∀ (b : Byte) (s : State), ∃ t : State, exec (.feed b) s = .next t ∧
    (t.fv = true → t.irq = s.handlerEn.getLsbD t.ccls.code.toNat) ∧ (t.fv = false → t.irq = false)) ∧
  ∀ (s : State) (rest : List Input) (m : Word), s.inputs = .access (.write 4 0x010#10 m) :: rest →
    ∃ t : State, step s = .next t ∧ t.irq = s.irq ∧ t.fv = s.fv ∧ SameLatched s t

/-- R256, R241, R243, R244: a host that keeps to accepted accesses, assigned opcodes and texts that fit never sees an error
flag other than `DROP` set, for any number of steps. -/
def Obligations.OrderlyHostRaisesNoHostError : Prop :=
  ∀ (k : Nat) (s t : State), (∀ i ∈ s.inputs, Orderly i) → runSteps k s = .next t →
    s.buserr = false → s.illop = false → s.eerr = false → t.buserr = false ∧ t.illop = false ∧ t.eerr = false

/-- R73: inputs are serviced one at a time, oldest first, each to completion. A step services the oldest input, in the state
it is taken from; as many steps as there are inputs in front of `rest` leave exactly the state those inputs leave when
serviced one after the other with only `rest` waiting, so none observes what is still to come behind it; and after `k`
steps the first `k` inputs are gone. That a reset keeps the inputs behind it is the model's choice (log 6), and so are the
list of inputs (log 1) and the step with none waiting, which changes nothing (log 2). -/
def Obligations.InputsAreServicedOneAtATimeInOrder : Prop :=
  (∀ (s : State) (i : Input) (rest : List Input), s.inputs = i :: rest →
    step s = serviceInput i { s with inputs := rest }) ∧
  (∀ (is rest : List Input) (s : State), s.inputs = is ++ rest →
    runSteps is.length s = serviceAll is { s with inputs := rest }) ∧
  (∀ (k : Nat) (s t : State), runSteps k s = .next t → t.inputs = s.inputs.drop k) ∧
  ∀ s : State, s.inputs = [] → step s = .next s
end

