-- ==== Sys2Proof/Laws/Decode.lean ====
section
/-! SUPPORT. The fields of a command word: what each reads from a word put together, and that a word is its three fields. -/

namespace Sys2Proof

theorem commandWord_toNat (opc b : Byte) (h : Half) :
    (commandWord opc b h).toNat = opc.toNat * 2 ^ 24 + b.toNat * 2 ^ 16 + h.toNat := by
  have hb := b.isLt
  have hh := h.isLt
  unfold commandWord
  rw [BitVec.toNat_append, BitVec.toNat_append, ← Nat.shiftLeft_add_eq_or_of_lt hh,
    ← Nat.shiftLeft_add_eq_or_of_lt hb, Nat.shiftLeft_eq, Nat.shiftLeft_eq]
  omega

theorem opcField_toNat (w : Word) : (opcField w).toNat = w.toNat / 2 ^ 24 := by
  have := w.isLt
  simp only [opcField, BitVec.extractLsb'_toNat, Nat.shiftRight_eq_div_pow]
  omega

theorem byteField_toNat (w : Word) : (byteField w).toNat = w.toNat / 2 ^ 16 % 2 ^ 8 := by
  simp only [byteField, BitVec.extractLsb'_toNat, Nat.shiftRight_eq_div_pow]

theorem halfField_toNat (w : Word) : (halfField w).toNat = w.toNat % 2 ^ 16 := by
  simp only [halfField, BitVec.extractLsb'_toNat, Nat.shiftRight_zero]

@[simp] theorem opcField_commandWord (opc b : Byte) (h : Half) : opcField (commandWord opc b h) = opc := by
  apply BitVec.eq_of_toNat_eq
  have := b.isLt; have := h.isLt
  rw [opcField_toNat, commandWord_toNat]; omega

@[simp] theorem byteField_commandWord (opc b : Byte) (h : Half) : byteField (commandWord opc b h) = b := by
  apply BitVec.eq_of_toNat_eq
  have := b.isLt; have := h.isLt
  rw [byteField_toNat, commandWord_toNat]; omega

@[simp] theorem halfField_commandWord (opc b : Byte) (h : Half) : halfField (commandWord opc b h) = h := by
  apply BitVec.eq_of_toNat_eq
  have := b.isLt; have := h.isLt
  rw [halfField_toNat, commandWord_toNat]; omega

/-- Every word is the command word of its three fields. -/
theorem commandWord_fields (w : Word) : commandWord (opcField w) (byteField w) (halfField w) = w := by
  apply BitVec.eq_of_toNat_eq
  rw [commandWord_toNat, opcField_toNat, byteField_toNat, halfField_toNat]
  have := w.isLt
  omega

end Sys2Proof
end

