-- ==== Sys2Proof/Laws/State.lean ====
section
/-! SUPPORT. One lemma per field per update of the state: what each named update of Ops.lean, Flags.lean and FrameDecoder.lean
leaves in each field. Later proofs rewrite with these and unfold no update. -/

namespace Sys2Proof.Machine

@[simp] theorem putRx_dstate (i : Fin 64) (b : Byte) (s : State) : (putRx i b s).dstate = s.dstate := rfl
@[simp] theorem putRx_rxcnt (i : Fin 64) (b : Byte) (s : State) : (putRx i b s).rxcnt = s.rxcnt := rfl
@[simp] theorem putRx_rxbuf (i : Fin 64) (b : Byte) (s : State) : (putRx i b s).rxbuf = s.rxbuf.set i.val b := rfl
@[simp] theorem putRx_fv (i : Fin 64) (b : Byte) (s : State) : (putRx i b s).fv = s.fv := rfl
@[simp] theorem putRx_dp (i : Fin 64) (b : Byte) (s : State) : (putRx i b s).dp = s.dp := rfl
@[simp] theorem putRx_ccls (i : Fin 64) (b : Byte) (s : State) : (putRx i b s).ccls = s.ccls := rfl
@[simp] theorem putRx_pv (i : Fin 64) (b : Byte) (s : State) : (putRx i b s).pv = s.pv := rfl
@[simp] theorem putRx_flen (i : Fin 64) (b : Byte) (s : State) : (putRx i b s).flen = s.flen := rfl
@[simp] theorem putRx_flenb (i : Fin 64) (b : Byte) (s : State) : (putRx i b s).flenb = s.flenb := rfl
@[simp] theorem putRx_fcmd (i : Fin 64) (b : Byte) (s : State) : (putRx i b s).fcmd = s.fcmd := rfl
@[simp] theorem putRx_rxVaddr (i : Fin 64) (b : Byte) (s : State) : (putRx i b s).rxVaddr = s.rxVaddr := rfl
@[simp] theorem putRx_rxVdata (i : Fin 64) (b : Byte) (s : State) : (putRx i b s).rxVdata = s.rxVdata := rfl
@[simp] theorem putRx_drop (i : Fin 64) (b : Byte) (s : State) : (putRx i b s).drop = s.drop := rfl
@[simp] theorem putRx_eerr (i : Fin 64) (b : Byte) (s : State) : (putRx i b s).eerr = s.eerr := rfl
@[simp] theorem putRx_illop (i : Fin 64) (b : Byte) (s : State) : (putRx i b s).illop = s.illop := rfl
@[simp] theorem putRx_buserr (i : Fin 64) (b : Byte) (s : State) : (putRx i b s).buserr = s.buserr := rfl
@[simp] theorem putRx_handlerEn (i : Fin 64) (b : Byte) (s : State) : (putRx i b s).handlerEn = s.handlerEn := rfl
@[simp] theorem putRx_vaddr (i : Fin 64) (b : Byte) (s : State) : (putRx i b s).vaddr = s.vaddr := rfl
@[simp] theorem putRx_result (i : Fin 64) (b : Byte) (s : State) : (putRx i b s).result = s.result := rfl
@[simp] theorem putRx_txlen (i : Fin 64) (b : Byte) (s : State) : (putRx i b s).txlen = s.txlen := rfl
@[simp] theorem putRx_txbuf (i : Fin 64) (b : Byte) (s : State) : (putRx i b s).txbuf = s.txbuf := rfl
@[simp] theorem putRx_textbuf (i : Fin 64) (b : Byte) (s : State) : (putRx i b s).textbuf = s.textbuf := rfl
@[simp] theorem putRx_inputs (i : Fin 64) (b : Byte) (s : State) : (putRx i b s).inputs = s.inputs := rfl
@[simp] theorem putRx_resp (i : Fin 64) (b : Byte) (s : State) : (putRx i b s).resp = s.resp := rfl
@[simp] theorem putRx_resets (i : Fin 64) (b : Byte) (s : State) : (putRx i b s).resets = s.resets := rfl

@[simp] theorem setDecoder_dstate (d : DState) (n : Count) (s : State) : (setDecoder d n s).dstate = d := rfl
@[simp] theorem setDecoder_rxcnt (d : DState) (n : Count) (s : State) : (setDecoder d n s).rxcnt = n := rfl
@[simp] theorem setDecoder_rxbuf (d : DState) (n : Count) (s : State) : (setDecoder d n s).rxbuf = s.rxbuf := rfl
@[simp] theorem setDecoder_fv (d : DState) (n : Count) (s : State) : (setDecoder d n s).fv = s.fv := rfl
@[simp] theorem setDecoder_dp (d : DState) (n : Count) (s : State) : (setDecoder d n s).dp = s.dp := rfl
@[simp] theorem setDecoder_ccls (d : DState) (n : Count) (s : State) : (setDecoder d n s).ccls = s.ccls := rfl
@[simp] theorem setDecoder_pv (d : DState) (n : Count) (s : State) : (setDecoder d n s).pv = s.pv := rfl
@[simp] theorem setDecoder_flen (d : DState) (n : Count) (s : State) : (setDecoder d n s).flen = s.flen := rfl
@[simp] theorem setDecoder_flenb (d : DState) (n : Count) (s : State) : (setDecoder d n s).flenb = s.flenb := rfl
@[simp] theorem setDecoder_fcmd (d : DState) (n : Count) (s : State) : (setDecoder d n s).fcmd = s.fcmd := rfl
@[simp] theorem setDecoder_rxVaddr (d : DState) (n : Count) (s : State) : (setDecoder d n s).rxVaddr = s.rxVaddr := rfl
@[simp] theorem setDecoder_rxVdata (d : DState) (n : Count) (s : State) : (setDecoder d n s).rxVdata = s.rxVdata := rfl
@[simp] theorem setDecoder_drop (d : DState) (n : Count) (s : State) : (setDecoder d n s).drop = s.drop := rfl
@[simp] theorem setDecoder_eerr (d : DState) (n : Count) (s : State) : (setDecoder d n s).eerr = s.eerr := rfl
@[simp] theorem setDecoder_illop (d : DState) (n : Count) (s : State) : (setDecoder d n s).illop = s.illop := rfl
@[simp] theorem setDecoder_buserr (d : DState) (n : Count) (s : State) : (setDecoder d n s).buserr = s.buserr := rfl
@[simp] theorem setDecoder_handlerEn (d : DState) (n : Count) (s : State) : (setDecoder d n s).handlerEn = s.handlerEn := rfl
@[simp] theorem setDecoder_vaddr (d : DState) (n : Count) (s : State) : (setDecoder d n s).vaddr = s.vaddr := rfl
@[simp] theorem setDecoder_result (d : DState) (n : Count) (s : State) : (setDecoder d n s).result = s.result := rfl
@[simp] theorem setDecoder_txlen (d : DState) (n : Count) (s : State) : (setDecoder d n s).txlen = s.txlen := rfl
@[simp] theorem setDecoder_txbuf (d : DState) (n : Count) (s : State) : (setDecoder d n s).txbuf = s.txbuf := rfl
@[simp] theorem setDecoder_textbuf (d : DState) (n : Count) (s : State) : (setDecoder d n s).textbuf = s.textbuf := rfl
@[simp] theorem setDecoder_inputs (d : DState) (n : Count) (s : State) : (setDecoder d n s).inputs = s.inputs := rfl
@[simp] theorem setDecoder_resp (d : DState) (n : Count) (s : State) : (setDecoder d n s).resp = s.resp := rfl
@[simp] theorem setDecoder_resets (d : DState) (n : Count) (s : State) : (setDecoder d n s).resets = s.resets := rfl

@[simp] theorem endFrame_dstate (s : State) : (endFrame s).dstate = s.dstate := rfl
@[simp] theorem endFrame_rxcnt (s : State) : (endFrame s).rxcnt = s.rxcnt := rfl
@[simp] theorem endFrame_rxbuf (s : State) : (endFrame s).rxbuf = s.rxbuf := rfl
@[simp] theorem endFrame_fv (s : State) : (endFrame s).fv = false := rfl
@[simp] theorem endFrame_dp (s : State) : (endFrame s).dp = false := rfl
@[simp] theorem endFrame_ccls (s : State) : (endFrame s).ccls = s.ccls := rfl
@[simp] theorem endFrame_pv (s : State) : (endFrame s).pv = s.pv := rfl
@[simp] theorem endFrame_flen (s : State) : (endFrame s).flen = s.flen := rfl
@[simp] theorem endFrame_flenb (s : State) : (endFrame s).flenb = s.flenb := rfl
@[simp] theorem endFrame_fcmd (s : State) : (endFrame s).fcmd = s.fcmd := rfl
@[simp] theorem endFrame_rxVaddr (s : State) : (endFrame s).rxVaddr = s.rxVaddr := rfl
@[simp] theorem endFrame_rxVdata (s : State) : (endFrame s).rxVdata = s.rxVdata := rfl
@[simp] theorem endFrame_drop (s : State) : (endFrame s).drop = s.drop := rfl
@[simp] theorem endFrame_eerr (s : State) : (endFrame s).eerr = s.eerr := rfl
@[simp] theorem endFrame_illop (s : State) : (endFrame s).illop = s.illop := rfl
@[simp] theorem endFrame_buserr (s : State) : (endFrame s).buserr = s.buserr := rfl
@[simp] theorem endFrame_handlerEn (s : State) : (endFrame s).handlerEn = s.handlerEn := rfl
@[simp] theorem endFrame_vaddr (s : State) : (endFrame s).vaddr = s.vaddr := rfl
@[simp] theorem endFrame_result (s : State) : (endFrame s).result = s.result := rfl
@[simp] theorem endFrame_txlen (s : State) : (endFrame s).txlen = s.txlen := rfl
@[simp] theorem endFrame_txbuf (s : State) : (endFrame s).txbuf = s.txbuf := rfl
@[simp] theorem endFrame_textbuf (s : State) : (endFrame s).textbuf = s.textbuf := rfl
@[simp] theorem endFrame_inputs (s : State) : (endFrame s).inputs = s.inputs := rfl
@[simp] theorem endFrame_resp (s : State) : (endFrame s).resp = s.resp := rfl
@[simp] theorem endFrame_resets (s : State) : (endFrame s).resets = s.resets := rfl

@[simp] theorem discardFrame_dstate (s : State) : (discardFrame s).dstate = .idle := rfl
@[simp] theorem discardFrame_rxcnt (s : State) : (discardFrame s).rxcnt = 0 := rfl
@[simp] theorem discardFrame_rxbuf (s : State) : (discardFrame s).rxbuf = s.rxbuf := rfl
@[simp] theorem discardFrame_fv (s : State) : (discardFrame s).fv = s.fv := rfl
@[simp] theorem discardFrame_dp (s : State) : (discardFrame s).dp = s.dp := rfl
@[simp] theorem discardFrame_ccls (s : State) : (discardFrame s).ccls = s.ccls := rfl
@[simp] theorem discardFrame_pv (s : State) : (discardFrame s).pv = s.pv := rfl
@[simp] theorem discardFrame_flen (s : State) : (discardFrame s).flen = s.flen := rfl
@[simp] theorem discardFrame_flenb (s : State) : (discardFrame s).flenb = s.flenb := rfl
@[simp] theorem discardFrame_fcmd (s : State) : (discardFrame s).fcmd = s.fcmd := rfl
@[simp] theorem discardFrame_rxVaddr (s : State) : (discardFrame s).rxVaddr = s.rxVaddr := rfl
@[simp] theorem discardFrame_rxVdata (s : State) : (discardFrame s).rxVdata = s.rxVdata := rfl
@[simp] theorem discardFrame_drop (s : State) : (discardFrame s).drop = true := rfl
@[simp] theorem discardFrame_eerr (s : State) : (discardFrame s).eerr = s.eerr := rfl
@[simp] theorem discardFrame_illop (s : State) : (discardFrame s).illop = s.illop := rfl
@[simp] theorem discardFrame_buserr (s : State) : (discardFrame s).buserr = s.buserr := rfl
@[simp] theorem discardFrame_handlerEn (s : State) : (discardFrame s).handlerEn = s.handlerEn := rfl
@[simp] theorem discardFrame_vaddr (s : State) : (discardFrame s).vaddr = s.vaddr := rfl
@[simp] theorem discardFrame_result (s : State) : (discardFrame s).result = s.result := rfl
@[simp] theorem discardFrame_txlen (s : State) : (discardFrame s).txlen = s.txlen := rfl
@[simp] theorem discardFrame_txbuf (s : State) : (discardFrame s).txbuf = s.txbuf := rfl
@[simp] theorem discardFrame_textbuf (s : State) : (discardFrame s).textbuf = s.textbuf := rfl
@[simp] theorem discardFrame_inputs (s : State) : (discardFrame s).inputs = s.inputs := rfl
@[simp] theorem discardFrame_resp (s : State) : (discardFrame s).resp = s.resp := rfl
@[simp] theorem discardFrame_resets (s : State) : (discardFrame s).resets = s.resets := rfl

@[simp] theorem emit_dstate (n : Count) (s : State) : (emit n s).dstate = .idle := rfl
@[simp] theorem emit_rxcnt (n : Count) (s : State) : (emit n s).rxcnt = 0 := rfl
@[simp] theorem emit_rxbuf (n : Count) (s : State) : (emit n s).rxbuf = s.rxbuf := rfl
@[simp] theorem emit_fv (n : Count) (s : State) : (emit n s).fv = true := rfl
@[simp] theorem emit_dp (n : Count) (s : State) : (emit n s).dp = handlerRegistered s.handlerEn (frameClass n s.rxbuf) := rfl
@[simp] theorem emit_ccls (n : Count) (s : State) : (emit n s).ccls = frameClass n s.rxbuf := rfl
@[simp] theorem emit_pv (n : Count) (s : State) : (emit n s).pv = framePv n s.rxbuf := rfl
@[simp] theorem emit_flen (n : Count) (s : State) : (emit n s).flen = n := rfl
@[simp] theorem emit_flenb (n : Count) (s : State) : (emit n s).flenb = s.rxbuf[2] := rfl
@[simp] theorem emit_fcmd (n : Count) (s : State) : (emit n s).fcmd = frameCmd n s.rxbuf := rfl
@[simp] theorem emit_rxVaddr (n : Count) (s : State) :
    (emit n s).rxVaddr = if framePv n s.rxbuf then halfOf s.rxbuf[4] s.rxbuf[5] else 0x0000#16 := rfl
@[simp] theorem emit_rxVdata (n : Count) (s : State) :
    (emit n s).rxVdata = if framePv n s.rxbuf then halfOf s.rxbuf[6] s.rxbuf[7] else 0x0000#16 := rfl
@[simp] theorem emit_drop (n : Count) (s : State) : (emit n s).drop = s.drop := rfl
@[simp] theorem emit_eerr (n : Count) (s : State) : (emit n s).eerr = s.eerr := rfl
@[simp] theorem emit_illop (n : Count) (s : State) : (emit n s).illop = s.illop := rfl
@[simp] theorem emit_buserr (n : Count) (s : State) : (emit n s).buserr = s.buserr := rfl
@[simp] theorem emit_handlerEn (n : Count) (s : State) : (emit n s).handlerEn = s.handlerEn := rfl
@[simp] theorem emit_vaddr (n : Count) (s : State) : (emit n s).vaddr = s.vaddr := rfl
@[simp] theorem emit_result (n : Count) (s : State) : (emit n s).result = s.result := rfl
@[simp] theorem emit_txlen (n : Count) (s : State) : (emit n s).txlen = s.txlen := rfl
@[simp] theorem emit_txbuf (n : Count) (s : State) : (emit n s).txbuf = s.txbuf := rfl
@[simp] theorem emit_textbuf (n : Count) (s : State) : (emit n s).textbuf = s.textbuf := rfl
@[simp] theorem emit_inputs (n : Count) (s : State) : (emit n s).inputs = s.inputs := rfl
@[simp] theorem emit_resp (n : Count) (s : State) : (emit n s).resp = s.resp := rfl
@[simp] theorem emit_resets (n : Count) (s : State) : (emit n s).resets = s.resets := rfl

@[simp] theorem setResult_dstate (v : Half) (s : State) : (setResult v s).dstate = s.dstate := rfl
@[simp] theorem setResult_rxcnt (v : Half) (s : State) : (setResult v s).rxcnt = s.rxcnt := rfl
@[simp] theorem setResult_rxbuf (v : Half) (s : State) : (setResult v s).rxbuf = s.rxbuf := rfl
@[simp] theorem setResult_fv (v : Half) (s : State) : (setResult v s).fv = s.fv := rfl
@[simp] theorem setResult_dp (v : Half) (s : State) : (setResult v s).dp = s.dp := rfl
@[simp] theorem setResult_ccls (v : Half) (s : State) : (setResult v s).ccls = s.ccls := rfl
@[simp] theorem setResult_pv (v : Half) (s : State) : (setResult v s).pv = s.pv := rfl
@[simp] theorem setResult_flen (v : Half) (s : State) : (setResult v s).flen = s.flen := rfl
@[simp] theorem setResult_flenb (v : Half) (s : State) : (setResult v s).flenb = s.flenb := rfl
@[simp] theorem setResult_fcmd (v : Half) (s : State) : (setResult v s).fcmd = s.fcmd := rfl
@[simp] theorem setResult_rxVaddr (v : Half) (s : State) : (setResult v s).rxVaddr = s.rxVaddr := rfl
@[simp] theorem setResult_rxVdata (v : Half) (s : State) : (setResult v s).rxVdata = s.rxVdata := rfl
@[simp] theorem setResult_drop (v : Half) (s : State) : (setResult v s).drop = s.drop := rfl
@[simp] theorem setResult_eerr (v : Half) (s : State) : (setResult v s).eerr = s.eerr := rfl
@[simp] theorem setResult_illop (v : Half) (s : State) : (setResult v s).illop = s.illop := rfl
@[simp] theorem setResult_buserr (v : Half) (s : State) : (setResult v s).buserr = s.buserr := rfl
@[simp] theorem setResult_handlerEn (v : Half) (s : State) : (setResult v s).handlerEn = s.handlerEn := rfl
@[simp] theorem setResult_vaddr (v : Half) (s : State) : (setResult v s).vaddr = s.vaddr := rfl
@[simp] theorem setResult_result (v : Half) (s : State) : (setResult v s).result = v := rfl
@[simp] theorem setResult_txlen (v : Half) (s : State) : (setResult v s).txlen = s.txlen := rfl
@[simp] theorem setResult_txbuf (v : Half) (s : State) : (setResult v s).txbuf = s.txbuf := rfl
@[simp] theorem setResult_textbuf (v : Half) (s : State) : (setResult v s).textbuf = s.textbuf := rfl
@[simp] theorem setResult_inputs (v : Half) (s : State) : (setResult v s).inputs = s.inputs := rfl
@[simp] theorem setResult_resp (v : Half) (s : State) : (setResult v s).resp = s.resp := rfl
@[simp] theorem setResult_resets (v : Half) (s : State) : (setResult v s).resets = s.resets := rfl

@[simp] theorem setTxlen_dstate (n : Count) (s : State) : (setTxlen n s).dstate = s.dstate := rfl
@[simp] theorem setTxlen_rxcnt (n : Count) (s : State) : (setTxlen n s).rxcnt = s.rxcnt := rfl
@[simp] theorem setTxlen_rxbuf (n : Count) (s : State) : (setTxlen n s).rxbuf = s.rxbuf := rfl
@[simp] theorem setTxlen_fv (n : Count) (s : State) : (setTxlen n s).fv = s.fv := rfl
@[simp] theorem setTxlen_dp (n : Count) (s : State) : (setTxlen n s).dp = s.dp := rfl
@[simp] theorem setTxlen_ccls (n : Count) (s : State) : (setTxlen n s).ccls = s.ccls := rfl
@[simp] theorem setTxlen_pv (n : Count) (s : State) : (setTxlen n s).pv = s.pv := rfl
@[simp] theorem setTxlen_flen (n : Count) (s : State) : (setTxlen n s).flen = s.flen := rfl
@[simp] theorem setTxlen_flenb (n : Count) (s : State) : (setTxlen n s).flenb = s.flenb := rfl
@[simp] theorem setTxlen_fcmd (n : Count) (s : State) : (setTxlen n s).fcmd = s.fcmd := rfl
@[simp] theorem setTxlen_rxVaddr (n : Count) (s : State) : (setTxlen n s).rxVaddr = s.rxVaddr := rfl
@[simp] theorem setTxlen_rxVdata (n : Count) (s : State) : (setTxlen n s).rxVdata = s.rxVdata := rfl
@[simp] theorem setTxlen_drop (n : Count) (s : State) : (setTxlen n s).drop = s.drop := rfl
@[simp] theorem setTxlen_eerr (n : Count) (s : State) : (setTxlen n s).eerr = s.eerr := rfl
@[simp] theorem setTxlen_illop (n : Count) (s : State) : (setTxlen n s).illop = s.illop := rfl
@[simp] theorem setTxlen_buserr (n : Count) (s : State) : (setTxlen n s).buserr = s.buserr := rfl
@[simp] theorem setTxlen_handlerEn (n : Count) (s : State) : (setTxlen n s).handlerEn = s.handlerEn := rfl
@[simp] theorem setTxlen_vaddr (n : Count) (s : State) : (setTxlen n s).vaddr = s.vaddr := rfl
@[simp] theorem setTxlen_result (n : Count) (s : State) : (setTxlen n s).result = s.result := rfl
@[simp] theorem setTxlen_txlen (n : Count) (s : State) : (setTxlen n s).txlen = n := rfl
@[simp] theorem setTxlen_txbuf (n : Count) (s : State) : (setTxlen n s).txbuf = s.txbuf := rfl
@[simp] theorem setTxlen_textbuf (n : Count) (s : State) : (setTxlen n s).textbuf = s.textbuf := rfl
@[simp] theorem setTxlen_inputs (n : Count) (s : State) : (setTxlen n s).inputs = s.inputs := rfl
@[simp] theorem setTxlen_resp (n : Count) (s : State) : (setTxlen n s).resp = s.resp := rfl
@[simp] theorem setTxlen_resets (n : Count) (s : State) : (setTxlen n s).resets = s.resets := rfl

@[simp] theorem putTx_dstate (bs : List Byte) (s : State) : (putTx bs s).dstate = s.dstate := rfl
@[simp] theorem putTx_rxcnt (bs : List Byte) (s : State) : (putTx bs s).rxcnt = s.rxcnt := rfl
@[simp] theorem putTx_rxbuf (bs : List Byte) (s : State) : (putTx bs s).rxbuf = s.rxbuf := rfl
@[simp] theorem putTx_fv (bs : List Byte) (s : State) : (putTx bs s).fv = s.fv := rfl
@[simp] theorem putTx_dp (bs : List Byte) (s : State) : (putTx bs s).dp = s.dp := rfl
@[simp] theorem putTx_ccls (bs : List Byte) (s : State) : (putTx bs s).ccls = s.ccls := rfl
@[simp] theorem putTx_pv (bs : List Byte) (s : State) : (putTx bs s).pv = s.pv := rfl
@[simp] theorem putTx_flen (bs : List Byte) (s : State) : (putTx bs s).flen = s.flen := rfl
@[simp] theorem putTx_flenb (bs : List Byte) (s : State) : (putTx bs s).flenb = s.flenb := rfl
@[simp] theorem putTx_fcmd (bs : List Byte) (s : State) : (putTx bs s).fcmd = s.fcmd := rfl
@[simp] theorem putTx_rxVaddr (bs : List Byte) (s : State) : (putTx bs s).rxVaddr = s.rxVaddr := rfl
@[simp] theorem putTx_rxVdata (bs : List Byte) (s : State) : (putTx bs s).rxVdata = s.rxVdata := rfl
@[simp] theorem putTx_drop (bs : List Byte) (s : State) : (putTx bs s).drop = s.drop := rfl
@[simp] theorem putTx_eerr (bs : List Byte) (s : State) : (putTx bs s).eerr = s.eerr := rfl
@[simp] theorem putTx_illop (bs : List Byte) (s : State) : (putTx bs s).illop = s.illop := rfl
@[simp] theorem putTx_buserr (bs : List Byte) (s : State) : (putTx bs s).buserr = s.buserr := rfl
@[simp] theorem putTx_handlerEn (bs : List Byte) (s : State) : (putTx bs s).handlerEn = s.handlerEn := rfl
@[simp] theorem putTx_vaddr (bs : List Byte) (s : State) : (putTx bs s).vaddr = s.vaddr := rfl
@[simp] theorem putTx_result (bs : List Byte) (s : State) : (putTx bs s).result = s.result := rfl
@[simp] theorem putTx_txlen (bs : List Byte) (s : State) : (putTx bs s).txlen = s.txlen := rfl
@[simp] theorem putTx_txbuf (bs : List Byte) (s : State) : (putTx bs s).txbuf = overwrite 0 bs s.txbuf := rfl
@[simp] theorem putTx_textbuf (bs : List Byte) (s : State) : (putTx bs s).textbuf = s.textbuf := rfl
@[simp] theorem putTx_inputs (bs : List Byte) (s : State) : (putTx bs s).inputs = s.inputs := rfl
@[simp] theorem putTx_resp (bs : List Byte) (s : State) : (putTx bs s).resp = s.resp := rfl
@[simp] theorem putTx_resets (bs : List Byte) (s : State) : (putTx bs s).resets = s.resets := rfl

@[simp] theorem setVaddr_dstate (v : Half) (s : State) : (setVaddr v s).dstate = s.dstate := rfl
@[simp] theorem setVaddr_rxcnt (v : Half) (s : State) : (setVaddr v s).rxcnt = s.rxcnt := rfl
@[simp] theorem setVaddr_rxbuf (v : Half) (s : State) : (setVaddr v s).rxbuf = s.rxbuf := rfl
@[simp] theorem setVaddr_fv (v : Half) (s : State) : (setVaddr v s).fv = s.fv := rfl
@[simp] theorem setVaddr_dp (v : Half) (s : State) : (setVaddr v s).dp = s.dp := rfl
@[simp] theorem setVaddr_ccls (v : Half) (s : State) : (setVaddr v s).ccls = s.ccls := rfl
@[simp] theorem setVaddr_pv (v : Half) (s : State) : (setVaddr v s).pv = s.pv := rfl
@[simp] theorem setVaddr_flen (v : Half) (s : State) : (setVaddr v s).flen = s.flen := rfl
@[simp] theorem setVaddr_flenb (v : Half) (s : State) : (setVaddr v s).flenb = s.flenb := rfl
@[simp] theorem setVaddr_fcmd (v : Half) (s : State) : (setVaddr v s).fcmd = s.fcmd := rfl
@[simp] theorem setVaddr_rxVaddr (v : Half) (s : State) : (setVaddr v s).rxVaddr = s.rxVaddr := rfl
@[simp] theorem setVaddr_rxVdata (v : Half) (s : State) : (setVaddr v s).rxVdata = s.rxVdata := rfl
@[simp] theorem setVaddr_drop (v : Half) (s : State) : (setVaddr v s).drop = s.drop := rfl
@[simp] theorem setVaddr_eerr (v : Half) (s : State) : (setVaddr v s).eerr = s.eerr := rfl
@[simp] theorem setVaddr_illop (v : Half) (s : State) : (setVaddr v s).illop = s.illop := rfl
@[simp] theorem setVaddr_buserr (v : Half) (s : State) : (setVaddr v s).buserr = s.buserr := rfl
@[simp] theorem setVaddr_handlerEn (v : Half) (s : State) : (setVaddr v s).handlerEn = s.handlerEn := rfl
@[simp] theorem setVaddr_vaddr (v : Half) (s : State) : (setVaddr v s).vaddr = v := rfl
@[simp] theorem setVaddr_result (v : Half) (s : State) : (setVaddr v s).result = s.result := rfl
@[simp] theorem setVaddr_txlen (v : Half) (s : State) : (setVaddr v s).txlen = s.txlen := rfl
@[simp] theorem setVaddr_txbuf (v : Half) (s : State) : (setVaddr v s).txbuf = s.txbuf := rfl
@[simp] theorem setVaddr_textbuf (v : Half) (s : State) : (setVaddr v s).textbuf = s.textbuf := rfl
@[simp] theorem setVaddr_inputs (v : Half) (s : State) : (setVaddr v s).inputs = s.inputs := rfl
@[simp] theorem setVaddr_resp (v : Half) (s : State) : (setVaddr v s).resp = s.resp := rfl
@[simp] theorem setVaddr_resets (v : Half) (s : State) : (setVaddr v s).resets = s.resets := rfl

@[simp] theorem setHandlerEn_dstate (m : BitVec 6) (s : State) : (setHandlerEn m s).dstate = s.dstate := rfl
@[simp] theorem setHandlerEn_rxcnt (m : BitVec 6) (s : State) : (setHandlerEn m s).rxcnt = s.rxcnt := rfl
@[simp] theorem setHandlerEn_rxbuf (m : BitVec 6) (s : State) : (setHandlerEn m s).rxbuf = s.rxbuf := rfl
@[simp] theorem setHandlerEn_fv (m : BitVec 6) (s : State) : (setHandlerEn m s).fv = s.fv := rfl
@[simp] theorem setHandlerEn_dp (m : BitVec 6) (s : State) : (setHandlerEn m s).dp = s.dp := rfl
@[simp] theorem setHandlerEn_ccls (m : BitVec 6) (s : State) : (setHandlerEn m s).ccls = s.ccls := rfl
@[simp] theorem setHandlerEn_pv (m : BitVec 6) (s : State) : (setHandlerEn m s).pv = s.pv := rfl
@[simp] theorem setHandlerEn_flen (m : BitVec 6) (s : State) : (setHandlerEn m s).flen = s.flen := rfl
@[simp] theorem setHandlerEn_flenb (m : BitVec 6) (s : State) : (setHandlerEn m s).flenb = s.flenb := rfl
@[simp] theorem setHandlerEn_fcmd (m : BitVec 6) (s : State) : (setHandlerEn m s).fcmd = s.fcmd := rfl
@[simp] theorem setHandlerEn_rxVaddr (m : BitVec 6) (s : State) : (setHandlerEn m s).rxVaddr = s.rxVaddr := rfl
@[simp] theorem setHandlerEn_rxVdata (m : BitVec 6) (s : State) : (setHandlerEn m s).rxVdata = s.rxVdata := rfl
@[simp] theorem setHandlerEn_drop (m : BitVec 6) (s : State) : (setHandlerEn m s).drop = s.drop := rfl
@[simp] theorem setHandlerEn_eerr (m : BitVec 6) (s : State) : (setHandlerEn m s).eerr = s.eerr := rfl
@[simp] theorem setHandlerEn_illop (m : BitVec 6) (s : State) : (setHandlerEn m s).illop = s.illop := rfl
@[simp] theorem setHandlerEn_buserr (m : BitVec 6) (s : State) : (setHandlerEn m s).buserr = s.buserr := rfl
@[simp] theorem setHandlerEn_handlerEn (m : BitVec 6) (s : State) : (setHandlerEn m s).handlerEn = m := rfl
@[simp] theorem setHandlerEn_vaddr (m : BitVec 6) (s : State) : (setHandlerEn m s).vaddr = s.vaddr := rfl
@[simp] theorem setHandlerEn_result (m : BitVec 6) (s : State) : (setHandlerEn m s).result = s.result := rfl
@[simp] theorem setHandlerEn_txlen (m : BitVec 6) (s : State) : (setHandlerEn m s).txlen = s.txlen := rfl
@[simp] theorem setHandlerEn_txbuf (m : BitVec 6) (s : State) : (setHandlerEn m s).txbuf = s.txbuf := rfl
@[simp] theorem setHandlerEn_textbuf (m : BitVec 6) (s : State) : (setHandlerEn m s).textbuf = s.textbuf := rfl
@[simp] theorem setHandlerEn_inputs (m : BitVec 6) (s : State) : (setHandlerEn m s).inputs = s.inputs := rfl
@[simp] theorem setHandlerEn_resp (m : BitVec 6) (s : State) : (setHandlerEn m s).resp = s.resp := rfl
@[simp] theorem setHandlerEn_resets (m : BitVec 6) (s : State) : (setHandlerEn m s).resets = s.resets := rfl

@[simp] theorem putText_dstate (i : Fin 58) (b : Byte) (s : State) : (putText i b s).dstate = s.dstate := rfl
@[simp] theorem putText_rxcnt (i : Fin 58) (b : Byte) (s : State) : (putText i b s).rxcnt = s.rxcnt := rfl
@[simp] theorem putText_rxbuf (i : Fin 58) (b : Byte) (s : State) : (putText i b s).rxbuf = s.rxbuf := rfl
@[simp] theorem putText_fv (i : Fin 58) (b : Byte) (s : State) : (putText i b s).fv = s.fv := rfl
@[simp] theorem putText_dp (i : Fin 58) (b : Byte) (s : State) : (putText i b s).dp = s.dp := rfl
@[simp] theorem putText_ccls (i : Fin 58) (b : Byte) (s : State) : (putText i b s).ccls = s.ccls := rfl
@[simp] theorem putText_pv (i : Fin 58) (b : Byte) (s : State) : (putText i b s).pv = s.pv := rfl
@[simp] theorem putText_flen (i : Fin 58) (b : Byte) (s : State) : (putText i b s).flen = s.flen := rfl
@[simp] theorem putText_flenb (i : Fin 58) (b : Byte) (s : State) : (putText i b s).flenb = s.flenb := rfl
@[simp] theorem putText_fcmd (i : Fin 58) (b : Byte) (s : State) : (putText i b s).fcmd = s.fcmd := rfl
@[simp] theorem putText_rxVaddr (i : Fin 58) (b : Byte) (s : State) : (putText i b s).rxVaddr = s.rxVaddr := rfl
@[simp] theorem putText_rxVdata (i : Fin 58) (b : Byte) (s : State) : (putText i b s).rxVdata = s.rxVdata := rfl
@[simp] theorem putText_drop (i : Fin 58) (b : Byte) (s : State) : (putText i b s).drop = s.drop := rfl
@[simp] theorem putText_eerr (i : Fin 58) (b : Byte) (s : State) : (putText i b s).eerr = s.eerr := rfl
@[simp] theorem putText_illop (i : Fin 58) (b : Byte) (s : State) : (putText i b s).illop = s.illop := rfl
@[simp] theorem putText_buserr (i : Fin 58) (b : Byte) (s : State) : (putText i b s).buserr = s.buserr := rfl
@[simp] theorem putText_handlerEn (i : Fin 58) (b : Byte) (s : State) : (putText i b s).handlerEn = s.handlerEn := rfl
@[simp] theorem putText_vaddr (i : Fin 58) (b : Byte) (s : State) : (putText i b s).vaddr = s.vaddr := rfl
@[simp] theorem putText_result (i : Fin 58) (b : Byte) (s : State) : (putText i b s).result = s.result := rfl
@[simp] theorem putText_txlen (i : Fin 58) (b : Byte) (s : State) : (putText i b s).txlen = s.txlen := rfl
@[simp] theorem putText_txbuf (i : Fin 58) (b : Byte) (s : State) : (putText i b s).txbuf = s.txbuf := rfl
@[simp] theorem putText_textbuf (i : Fin 58) (b : Byte) (s : State) : (putText i b s).textbuf = s.textbuf.set i.val b := rfl
@[simp] theorem putText_inputs (i : Fin 58) (b : Byte) (s : State) : (putText i b s).inputs = s.inputs := rfl
@[simp] theorem putText_resp (i : Fin 58) (b : Byte) (s : State) : (putText i b s).resp = s.resp := rfl
@[simp] theorem putText_resets (i : Fin 58) (b : Byte) (s : State) : (putText i b s).resets = s.resets := rfl

@[simp] theorem respond_dstate (r : Response) (s : State) : (respond r s).dstate = s.dstate := rfl
@[simp] theorem respond_rxcnt (r : Response) (s : State) : (respond r s).rxcnt = s.rxcnt := rfl
@[simp] theorem respond_rxbuf (r : Response) (s : State) : (respond r s).rxbuf = s.rxbuf := rfl
@[simp] theorem respond_fv (r : Response) (s : State) : (respond r s).fv = s.fv := rfl
@[simp] theorem respond_dp (r : Response) (s : State) : (respond r s).dp = s.dp := rfl
@[simp] theorem respond_ccls (r : Response) (s : State) : (respond r s).ccls = s.ccls := rfl
@[simp] theorem respond_pv (r : Response) (s : State) : (respond r s).pv = s.pv := rfl
@[simp] theorem respond_flen (r : Response) (s : State) : (respond r s).flen = s.flen := rfl
@[simp] theorem respond_flenb (r : Response) (s : State) : (respond r s).flenb = s.flenb := rfl
@[simp] theorem respond_fcmd (r : Response) (s : State) : (respond r s).fcmd = s.fcmd := rfl
@[simp] theorem respond_rxVaddr (r : Response) (s : State) : (respond r s).rxVaddr = s.rxVaddr := rfl
@[simp] theorem respond_rxVdata (r : Response) (s : State) : (respond r s).rxVdata = s.rxVdata := rfl
@[simp] theorem respond_drop (r : Response) (s : State) : (respond r s).drop = s.drop := rfl
@[simp] theorem respond_eerr (r : Response) (s : State) : (respond r s).eerr = s.eerr := rfl
@[simp] theorem respond_illop (r : Response) (s : State) : (respond r s).illop = s.illop := rfl
@[simp] theorem respond_buserr (r : Response) (s : State) : (respond r s).buserr = s.buserr := rfl
@[simp] theorem respond_handlerEn (r : Response) (s : State) : (respond r s).handlerEn = s.handlerEn := rfl
@[simp] theorem respond_vaddr (r : Response) (s : State) : (respond r s).vaddr = s.vaddr := rfl
@[simp] theorem respond_result (r : Response) (s : State) : (respond r s).result = s.result := rfl
@[simp] theorem respond_txlen (r : Response) (s : State) : (respond r s).txlen = s.txlen := rfl
@[simp] theorem respond_txbuf (r : Response) (s : State) : (respond r s).txbuf = s.txbuf := rfl
@[simp] theorem respond_textbuf (r : Response) (s : State) : (respond r s).textbuf = s.textbuf := rfl
@[simp] theorem respond_inputs (r : Response) (s : State) : (respond r s).inputs = s.inputs := rfl
@[simp] theorem respond_resp (r : Response) (s : State) : (respond r s).resp = some r := rfl
@[simp] theorem respond_resets (r : Response) (s : State) : (respond r s).resets = s.resets := rfl

@[simp] theorem setInputs_dstate (l : List Input) (s : State) : (setInputs l s).dstate = s.dstate := rfl
@[simp] theorem setInputs_rxcnt (l : List Input) (s : State) : (setInputs l s).rxcnt = s.rxcnt := rfl
@[simp] theorem setInputs_rxbuf (l : List Input) (s : State) : (setInputs l s).rxbuf = s.rxbuf := rfl
@[simp] theorem setInputs_fv (l : List Input) (s : State) : (setInputs l s).fv = s.fv := rfl
@[simp] theorem setInputs_dp (l : List Input) (s : State) : (setInputs l s).dp = s.dp := rfl
@[simp] theorem setInputs_ccls (l : List Input) (s : State) : (setInputs l s).ccls = s.ccls := rfl
@[simp] theorem setInputs_pv (l : List Input) (s : State) : (setInputs l s).pv = s.pv := rfl
@[simp] theorem setInputs_flen (l : List Input) (s : State) : (setInputs l s).flen = s.flen := rfl
@[simp] theorem setInputs_flenb (l : List Input) (s : State) : (setInputs l s).flenb = s.flenb := rfl
@[simp] theorem setInputs_fcmd (l : List Input) (s : State) : (setInputs l s).fcmd = s.fcmd := rfl
@[simp] theorem setInputs_rxVaddr (l : List Input) (s : State) : (setInputs l s).rxVaddr = s.rxVaddr := rfl
@[simp] theorem setInputs_rxVdata (l : List Input) (s : State) : (setInputs l s).rxVdata = s.rxVdata := rfl
@[simp] theorem setInputs_drop (l : List Input) (s : State) : (setInputs l s).drop = s.drop := rfl
@[simp] theorem setInputs_eerr (l : List Input) (s : State) : (setInputs l s).eerr = s.eerr := rfl
@[simp] theorem setInputs_illop (l : List Input) (s : State) : (setInputs l s).illop = s.illop := rfl
@[simp] theorem setInputs_buserr (l : List Input) (s : State) : (setInputs l s).buserr = s.buserr := rfl
@[simp] theorem setInputs_handlerEn (l : List Input) (s : State) : (setInputs l s).handlerEn = s.handlerEn := rfl
@[simp] theorem setInputs_vaddr (l : List Input) (s : State) : (setInputs l s).vaddr = s.vaddr := rfl
@[simp] theorem setInputs_result (l : List Input) (s : State) : (setInputs l s).result = s.result := rfl
@[simp] theorem setInputs_txlen (l : List Input) (s : State) : (setInputs l s).txlen = s.txlen := rfl
@[simp] theorem setInputs_txbuf (l : List Input) (s : State) : (setInputs l s).txbuf = s.txbuf := rfl
@[simp] theorem setInputs_textbuf (l : List Input) (s : State) : (setInputs l s).textbuf = s.textbuf := rfl
@[simp] theorem setInputs_inputs (l : List Input) (s : State) : (setInputs l s).inputs = l := rfl
@[simp] theorem setInputs_resp (l : List Input) (s : State) : (setInputs l s).resp = s.resp := rfl
@[simp] theorem setInputs_resets (l : List Input) (s : State) : (setInputs l s).resets = s.resets := rfl

@[simp] theorem clearFlags_dstate (w : Word) (s : State) : (clearFlags w s).dstate = s.dstate := rfl
@[simp] theorem clearFlags_rxcnt (w : Word) (s : State) : (clearFlags w s).rxcnt = s.rxcnt := rfl
@[simp] theorem clearFlags_rxbuf (w : Word) (s : State) : (clearFlags w s).rxbuf = s.rxbuf := rfl
@[simp] theorem clearFlags_fv (w : Word) (s : State) : (clearFlags w s).fv = s.fv := rfl
@[simp] theorem clearFlags_dp (w : Word) (s : State) : (clearFlags w s).dp = w1c s.dp (w.getLsbD 3) := rfl
@[simp] theorem clearFlags_ccls (w : Word) (s : State) : (clearFlags w s).ccls = s.ccls := rfl
@[simp] theorem clearFlags_pv (w : Word) (s : State) : (clearFlags w s).pv = s.pv := rfl
@[simp] theorem clearFlags_flen (w : Word) (s : State) : (clearFlags w s).flen = s.flen := rfl
@[simp] theorem clearFlags_flenb (w : Word) (s : State) : (clearFlags w s).flenb = s.flenb := rfl
@[simp] theorem clearFlags_fcmd (w : Word) (s : State) : (clearFlags w s).fcmd = s.fcmd := rfl
@[simp] theorem clearFlags_rxVaddr (w : Word) (s : State) : (clearFlags w s).rxVaddr = s.rxVaddr := rfl
@[simp] theorem clearFlags_rxVdata (w : Word) (s : State) : (clearFlags w s).rxVdata = s.rxVdata := rfl
@[simp] theorem clearFlags_drop (w : Word) (s : State) : (clearFlags w s).drop = w1c s.drop (w.getLsbD 8) := rfl
@[simp] theorem clearFlags_eerr (w : Word) (s : State) : (clearFlags w s).eerr = w1c s.eerr (w.getLsbD 9) := rfl
@[simp] theorem clearFlags_illop (w : Word) (s : State) : (clearFlags w s).illop = w1c s.illop (w.getLsbD 10) := rfl
@[simp] theorem clearFlags_buserr (w : Word) (s : State) : (clearFlags w s).buserr = w1c s.buserr (w.getLsbD 11) := rfl
@[simp] theorem clearFlags_handlerEn (w : Word) (s : State) : (clearFlags w s).handlerEn = s.handlerEn := rfl
@[simp] theorem clearFlags_vaddr (w : Word) (s : State) : (clearFlags w s).vaddr = s.vaddr := rfl
@[simp] theorem clearFlags_result (w : Word) (s : State) : (clearFlags w s).result = s.result := rfl
@[simp] theorem clearFlags_txlen (w : Word) (s : State) : (clearFlags w s).txlen = s.txlen := rfl
@[simp] theorem clearFlags_txbuf (w : Word) (s : State) : (clearFlags w s).txbuf = s.txbuf := rfl
@[simp] theorem clearFlags_textbuf (w : Word) (s : State) : (clearFlags w s).textbuf = s.textbuf := rfl
@[simp] theorem clearFlags_inputs (w : Word) (s : State) : (clearFlags w s).inputs = s.inputs := rfl
@[simp] theorem clearFlags_resp (w : Word) (s : State) : (clearFlags w s).resp = s.resp := rfl
@[simp] theorem clearFlags_resets (w : Word) (s : State) : (clearFlags w s).resets = s.resets := rfl

@[simp] theorem raise_dstate (e : Event) (s : State) : (raise e s).dstate = s.dstate := by cases e <;> rfl
@[simp] theorem raise_rxcnt (e : Event) (s : State) : (raise e s).rxcnt = s.rxcnt := by cases e <;> rfl
@[simp] theorem raise_rxbuf (e : Event) (s : State) : (raise e s).rxbuf = s.rxbuf := by cases e <;> rfl
@[simp] theorem raise_fv (e : Event) (s : State) : (raise e s).fv = s.fv := by cases e <;> rfl
@[simp] theorem raise_dp (e : Event) (s : State) : (raise e s).dp = s.dp := by cases e <;> rfl
@[simp] theorem raise_ccls (e : Event) (s : State) : (raise e s).ccls = s.ccls := by cases e <;> rfl
@[simp] theorem raise_pv (e : Event) (s : State) : (raise e s).pv = s.pv := by cases e <;> rfl
@[simp] theorem raise_flen (e : Event) (s : State) : (raise e s).flen = s.flen := by cases e <;> rfl
@[simp] theorem raise_flenb (e : Event) (s : State) : (raise e s).flenb = s.flenb := by cases e <;> rfl
@[simp] theorem raise_fcmd (e : Event) (s : State) : (raise e s).fcmd = s.fcmd := by cases e <;> rfl
@[simp] theorem raise_rxVaddr (e : Event) (s : State) : (raise e s).rxVaddr = s.rxVaddr := by cases e <;> rfl
@[simp] theorem raise_rxVdata (e : Event) (s : State) : (raise e s).rxVdata = s.rxVdata := by cases e <;> rfl
@[simp] theorem raise_frameDiscard_drop (s : State) : (raise .frameDiscard s).drop = true := rfl
@[simp] theorem raise_encodeLength_drop (s : State) : (raise .encodeLength s).drop = s.drop := rfl
@[simp] theorem raise_illegalOp_drop (s : State) : (raise .illegalOp s).drop = s.drop := rfl
@[simp] theorem raise_busError_drop (s : State) : (raise .busError s).drop = s.drop := rfl
@[simp] theorem raise_frameDiscard_eerr (s : State) : (raise .frameDiscard s).eerr = s.eerr := rfl
@[simp] theorem raise_encodeLength_eerr (s : State) : (raise .encodeLength s).eerr = true := rfl
@[simp] theorem raise_illegalOp_eerr (s : State) : (raise .illegalOp s).eerr = s.eerr := rfl
@[simp] theorem raise_busError_eerr (s : State) : (raise .busError s).eerr = s.eerr := rfl
@[simp] theorem raise_frameDiscard_illop (s : State) : (raise .frameDiscard s).illop = s.illop := rfl
@[simp] theorem raise_encodeLength_illop (s : State) : (raise .encodeLength s).illop = s.illop := rfl
@[simp] theorem raise_illegalOp_illop (s : State) : (raise .illegalOp s).illop = true := rfl
@[simp] theorem raise_busError_illop (s : State) : (raise .busError s).illop = s.illop := rfl
@[simp] theorem raise_frameDiscard_buserr (s : State) : (raise .frameDiscard s).buserr = s.buserr := rfl
@[simp] theorem raise_encodeLength_buserr (s : State) : (raise .encodeLength s).buserr = s.buserr := rfl
@[simp] theorem raise_illegalOp_buserr (s : State) : (raise .illegalOp s).buserr = s.buserr := rfl
@[simp] theorem raise_busError_buserr (s : State) : (raise .busError s).buserr = true := rfl
@[simp] theorem raise_handlerEn (e : Event) (s : State) : (raise e s).handlerEn = s.handlerEn := by cases e <;> rfl
@[simp] theorem raise_vaddr (e : Event) (s : State) : (raise e s).vaddr = s.vaddr := by cases e <;> rfl
@[simp] theorem raise_result (e : Event) (s : State) : (raise e s).result = s.result := by cases e <;> rfl
@[simp] theorem raise_txlen (e : Event) (s : State) : (raise e s).txlen = s.txlen := by cases e <;> rfl
@[simp] theorem raise_txbuf (e : Event) (s : State) : (raise e s).txbuf = s.txbuf := by cases e <;> rfl
@[simp] theorem raise_textbuf (e : Event) (s : State) : (raise e s).textbuf = s.textbuf := by cases e <;> rfl
@[simp] theorem raise_inputs (e : Event) (s : State) : (raise e s).inputs = s.inputs := by cases e <;> rfl
@[simp] theorem raise_resp (e : Event) (s : State) : (raise e s).resp = s.resp := by cases e <;> rfl
@[simp] theorem raise_resets (e : Event) (s : State) : (raise e s).resets = s.resets := by cases e <;> rfl

@[simp] theorem applyReset_dstate (s : State) : (applyReset s).dstate = .idle := rfl
@[simp] theorem applyReset_rxcnt (s : State) : (applyReset s).rxcnt = 0 := rfl
@[simp] theorem applyReset_fv (s : State) : (applyReset s).fv = false := rfl
@[simp] theorem applyReset_dp (s : State) : (applyReset s).dp = false := rfl
@[simp] theorem applyReset_ccls (s : State) : (applyReset s).ccls = .writeRegister := rfl
@[simp] theorem applyReset_pv (s : State) : (applyReset s).pv = false := rfl
@[simp] theorem applyReset_flen (s : State) : (applyReset s).flen = 0 := rfl
@[simp] theorem applyReset_flenb (s : State) : (applyReset s).flenb = 0#8 := rfl
@[simp] theorem applyReset_fcmd (s : State) : (applyReset s).fcmd = 0#8 := rfl
@[simp] theorem applyReset_rxVaddr (s : State) : (applyReset s).rxVaddr = 0#16 := rfl
@[simp] theorem applyReset_rxVdata (s : State) : (applyReset s).rxVdata = 0#16 := rfl
@[simp] theorem applyReset_drop (s : State) : (applyReset s).drop = false := rfl
@[simp] theorem applyReset_eerr (s : State) : (applyReset s).eerr = false := rfl
@[simp] theorem applyReset_illop (s : State) : (applyReset s).illop = false := rfl
@[simp] theorem applyReset_buserr (s : State) : (applyReset s).buserr = false := rfl
@[simp] theorem applyReset_handlerEn (s : State) : (applyReset s).handlerEn = 0#6 := rfl
@[simp] theorem applyReset_vaddr (s : State) : (applyReset s).vaddr = 0#16 := rfl
@[simp] theorem applyReset_result (s : State) : (applyReset s).result = 0#16 := rfl
@[simp] theorem applyReset_txlen (s : State) : (applyReset s).txlen = 0 := rfl
@[simp] theorem applyReset_resp (s : State) : (applyReset s).resp = none := rfl
@[simp] theorem applyReset_inputs (s : State) : (applyReset s).inputs = s.inputs := rfl
@[simp] theorem applyReset_resets (s : State) : (applyReset s).resets = s.resets + 1 := rfl

/-- Reset leaves every register at its reset value, whatever the state (R270); only the buffers' free contents, the inputs
still to come and the reset count depend on it. -/
theorem applyReset_eq (s : State) :
    applyReset s =
      { State.reset with
        rxbuf := (applyReset s).rxbuf, txbuf := (applyReset s).txbuf, textbuf := (applyReset s).textbuf,
        inputs := s.inputs, resets := s.resets + 1 } := rfl

end Sys2Proof.Machine
end

