-- ==== Sys2Proof/Laws/FrameDecoder.lean ====
section
/-! SUPPORT. What `FEED` can do, said once: one case per branch of the decoder (spec 40_decoder.md R120 to R127). -/

namespace Sys2Proof.Machine

/-- What storing the byte and looking at the length does (R124 to R126). -/
theorem feedStored_cases (n : Count) (u : State) :
    (expLen u > 64 ∧ feedStored n u = discardFrame u) ∨
      (expLen u ≤ 64 ∧ expLen u ≤ n.val ∧ feedStored n u = emit n u) ∨
      (expLen u ≤ 64 ∧ n.val < expLen u ∧ feedStored n u = setDecoder .collecting n u) := by
  unfold feedStored
  by_cases h1 : expLen u > 64
  · exact .inl ⟨h1, if_pos h1⟩
  · by_cases h2 : n.val ≥ expLen u
    · exact .inr (.inl ⟨by omega, h2, by rw [if_neg h1, if_pos h2]⟩)
    · exact .inr (.inr ⟨by omega, by omega, by rw [if_neg h1, if_neg h2]⟩)

/-- `FEED` with room in `Collecting` (R124): the byte is stored at `RXCNT` and the count is one more. -/
theorem feed_collecting {b : Byte} {s : State} (hd : s.dstate = .collecting) (i : Fin 64) (n : Count)
    (hi : i.val = s.rxcnt.val) (hn : n.val = s.rxcnt.val + 1) :
    feed b s = feedStored n (putRx i b (endFrame s)) := by
  obtain ⟨i, hlt⟩ := i
  obtain ⟨n, hn'⟩ := n
  obtain rfl : i = s.rxcnt.val := hi
  obtain rfl : n = s.rxcnt.val + 1 := hn
  rw [feed, hd]
  exact dif_neg (show ¬(endFrame s).rxcnt.val = 64 by rw [endFrame_rxcnt]; omega)

/-- Everything a `FEED` can do. -/
theorem feed_cases (b : Byte) (s : State) :
    (s.dstate = .idle ∧ b ≠ 0x5A#8 ∧ feed b s = endFrame s) ∨
    (s.dstate = .idle ∧ b = 0x5A#8 ∧ feed b s = setDecoder .headerSeen 1 (putRx 0 b (endFrame s))) ∨
    (s.dstate = .headerSeen ∧ b ≠ 0xA5#8 ∧ feed b s = setDecoder .idle 0 (endFrame s)) ∨
    (s.dstate = .headerSeen ∧ b = 0xA5#8 ∧ feed b s = setDecoder .collecting 2 (putRx 1 b (endFrame s))) ∨
    (s.dstate = .collecting ∧ s.rxcnt.val = 64 ∧ feed b s = discardFrame (endFrame s)) ∨
    (s.dstate = .collecting ∧ ∃ (i : Fin 64) (n : Count), i.val = s.rxcnt.val ∧ n.val = s.rxcnt.val + 1 ∧
      ∃ u, u = putRx i b (endFrame s) ∧
        ((expLen u > 64 ∧ feed b s = discardFrame u) ∨
          (expLen u ≤ 64 ∧ expLen u ≤ n.val ∧ feed b s = emit n u) ∨
          (expLen u ≤ 64 ∧ n.val < expLen u ∧ feed b s = setDecoder .collecting n u))) := by
  cases hd : s.dstate with
  | idle =>
    have e : feed b s = feedIdle b (endFrame s) := by rw [feed, hd]
    by_cases hb : b = 0x5A#8
    · exact .inr (.inl ⟨rfl, hb, by rw [e]; exact if_pos hb⟩)
    · exact .inl ⟨rfl, hb, by rw [e]; exact if_neg hb⟩
  | headerSeen =>
    have e : feed b s = feedHeaderSeen b (endFrame s) := by rw [feed, hd]
    by_cases hb : b = 0xA5#8
    · exact .inr (.inr (.inr (.inl ⟨rfl, hb, by rw [e]; exact if_pos hb⟩)))
    · exact .inr (.inr (.inl ⟨rfl, hb, by rw [e]; exact if_neg hb⟩))
  | collecting =>
    by_cases h : s.rxcnt.val = 64
    · refine .inr (.inr (.inr (.inr (.inl ⟨rfl, h, ?_⟩))))
      rw [feed, hd]
      exact dif_pos (show (endFrame s).rxcnt.val = 64 from h)
    · have hlt : s.rxcnt.val < 64 := by have := s.rxcnt.isLt; omega
      refine .inr (.inr (.inr (.inr (.inr ⟨rfl, ⟨_, hlt⟩, ⟨s.rxcnt.val + 1, by omega⟩, rfl, rfl, _, rfl, ?_⟩))))
      rw [feed_collecting hd ⟨_, hlt⟩ ⟨s.rxcnt.val + 1, by omega⟩ rfl rfl]
      exact feedStored_cases _ _

end Sys2Proof.Machine
end

