-- ==== Sys2Proof/Laws/Ops.lean ====
section
/-! SUPPORT. What the shared operations do: the operand forms over the integers, writing bytes into a buffer, and building a
frame. -/

namespace Sys2Proof.Machine

/-- `s16(h)` is the two's complement value (R10). -/
theorem s16_eq_toInt (h : Half) : s16 h = h.toInt := by
  have := h.isLt
  rw [s16, BitVec.toInt_eq_toNat_cond]
  split <;> split <;> omega

/-- `clampL` over the integers (R13). -/
theorem clampL_val (x : Int) : ((clampL x).val : Int) = max 0 (min 100 x) := by
  unfold clampL
  split
  · simp; omega
  · split
    · simp; omega
    · simp only; omega

/-- The level operand (R92). -/
theorem lvl_val (h : Half) : ((lvl h).val : Int) = max 0 (min 100 h.toInt) := by
  rw [lvl, clampL_val, s16_eq_toInt]

theorem levelHalf_toNat (l : Level) : (levelHalf l).toNat = l.val := by
  have := l.isLt
  simp only [levelHalf, BitVec.toNat_ofNat, Config.levelMax] at *
  omega

theorem hiByte_toNat (v : Half) : (hiByte v).toNat = v.toNat / 256 := by
  have := v.isLt
  simp only [hiByte, BitVec.extractLsb'_toNat, Nat.shiftRight_eq_div_pow]
  omega

theorem loByte_toNat (v : Half) : (loByte v).toNat = v.toNat % 256 := by
  simp [loByte, BitVec.extractLsb'_toNat]

theorem halfOf_toNat (hi lo : Byte) : (halfOf hi lo).toNat = hi.toNat * 256 + lo.toNat := by
  have := lo.isLt
  unfold halfOf
  rw [BitVec.toNat_append, ← Nat.shiftLeft_add_eq_or_of_lt this, Nat.shiftLeft_eq]

/-- A half-word is put together from its two bytes: serialising and reading back is the identity (R70, R168). -/
@[simp] theorem halfOf_hiByte_loByte (v : Half) : halfOf (hiByte v) (loByte v) = v := by
  apply BitVec.eq_of_toNat_eq
  rw [halfOf_toNat, hiByte_toNat, loByte_toNat]
  omega

/-- Each element after bytes are written from element `k` on. -/
theorem getElem_overwrite {n : Nat} (bs : List Byte) (k : Nat) (buf : Vector Byte n) (i : Nat) (hi : i < n) :
    (overwrite k bs buf)[i] = if h : k ≤ i ∧ i - k < bs.length then bs[i - k] else buf[i] := by
  induction bs generalizing k buf with
  | nil => simp [overwrite]
  | cons b rest ih =>
    rw [overwrite, ih]
    by_cases h1 : k + 1 ≤ i ∧ i - (k + 1) < rest.length
    · have h2 : k ≤ i ∧ i - k < (b :: rest).length := by simp only [List.length_cons]; omega
      have e : i - k = (i - (k + 1)) + 1 := by omega
      rw [dif_pos h1, dif_pos h2]
      simp only [e, List.getElem_cons_succ]
    · rw [dif_neg h1, Vector.getElem_setIfInBounds]
      by_cases h3 : k = i
      · subst h3; simp
      · have h2 : ¬(k ≤ i ∧ i - k < (b :: rest).length) := by simp only [List.length_cons]; omega
        rw [dif_neg h2, if_neg h3]

/-- The bytes written at the start of a buffer are what its start reads. -/
theorem take_overwrite {n : Nat} (bs : List Byte) (buf : Vector Byte n) (h : bs.length ≤ n) :
    (overwrite 0 bs buf).toList.take bs.length = bs := by
  apply List.ext_getElem
  · simp; omega
  · intro i h1 h2
    simp only [List.getElem_take, Vector.getElem_toList]
    rw [getElem_overwrite, dif_pos ⟨Nat.zero_le _, by simpa using h2⟩]
    simp

theorem length_frameOf (cmd : Byte) (p : List Byte) : (frameOf cmd p).length = p.length + 4 := by
  simp [frameOf]

/-- The frame `build` leaves in `TXBUF[0..TXLEN-1]` (R160). -/
theorem txFrame_build (cmd : Byte) (p : List Byte) (fits : p.length ≤ 60) (s : State) :
    txFrame (build cmd p fits s) = frameOf cmd p := by
  have := take_overwrite (frameOf cmd p) s.txbuf (by rw [length_frameOf]; omega)
  rw [length_frameOf] at this
  exact this

theorem build_txlen (cmd : Byte) (p : List Byte) (fits : p.length ≤ 60) (s : State) :
    (build cmd p fits s).txlen.val = p.length + 4 := rfl

/-- `build` leaves `TXBUF[TXLEN..63]` as it was (R160). -/
theorem build_txbuf_tail (cmd : Byte) (p : List Byte) (fits : p.length ≤ 60) (s : State) (i : Nat) (hi : i < 64)
    (h : p.length + 4 ≤ i) : (build cmd p fits s).txbuf[i] = s.txbuf[i] := by
  show (overwrite 0 (frameOf cmd p) s.txbuf)[i] = _
  rw [getElem_overwrite, dif_neg (by rw [length_frameOf]; omega)]

/-- `build` writes `TXBUF` and `TXLEN` and nothing else (R161). -/
theorem build_frame (cmd : Byte) (p : List Byte) (fits : p.length ≤ 60) (s : State) :
    build cmd p fits s =
      { s with txbuf := (build cmd p fits s).txbuf, txlen := (build cmd p fits s).txlen } := rfl

end Sys2Proof.Machine
end

