-- ==== Sys2Proof/Laws/FrameEncoder.lean ====
section
/-! SUPPORT. What the encoder operations do, said once: each builds one frame (spec 41_encoder.md R160 to R167), and what
such a frame is. -/

namespace Sys2Proof.Machine

theorem exec_encWreg (reg : Byte) (data : Half) (s : State) :
    exec (.encWreg reg data) s = .next (build 0x80#8 (reg :: bytesOfHalf data) (by simp [bytesOfHalf]) s) := rfl

theorem exec_encWvar (value : Half) (s : State) :
    exec (.encWvar value) s =
      .next (build 0x82#8 (bytesOfHalf s.vaddr ++ bytesOfHalf value) (by simp [bytesOfHalf]) s) := rfl

theorem exec_encWvol (vol : Half) (s : State) :
    exec (.encWvol vol) s = .next (build 0x82#8 (bytesOfHalf s.vaddr ++ [BitVec.ofNat 8 (lvl vol).val, 0x00#8])
      (by simp [bytesOfHalf]) s) := rfl

theorem exec_encRvar (count : Byte) (s : State) :
    exec (.encRvar count) s = .next (build 0x83#8 (bytesOfHalf s.vaddr ++ [count]) (by simp [bytesOfHalf]) s) := rfl

theorem length_textPayload {n : Nat} (h : n ≤ 58) (s : State) : (textPayload n s).length = n + 2 := by
  simp only [textPayload, bytesOfHalf, List.length_append, List.length_take, Vector.length_toList, List.length_cons,
    List.length_nil]
  omega

/-- `ENC.WTEXT n` with a text that fits builds a frame (R165). -/
theorem exec_encWtext_fits {n : Byte} (h : n.toNat ≤ 58) (s : State) :
    exec (.encWtext n) s = .next (build 0x82#8 (textPayload n.toNat s) (by rw [length_textPayload h]; omega) s) := by
  refine congrArg Host.Outcome.next (if_neg ?_)
  simp only [Config.textcap]
  omega

/-- `ENC.WTEXT n` with a text that does not fit builds nothing (R166). -/
theorem exec_encWtext_long {n : Byte} (h : 58 < n.toNat) (s : State) :
    exec (.encWtext n) s = .next (setTxlen 0 (raise .encodeLength s)) := by
  refine congrArg Host.Outcome.next (if_pos ?_)
  simp only [Config.textcap]
  omega

/-- The frames `build` makes are well-formed wire frames (R160). -/
theorem wireFrame_frameOf (cmd : Byte) {p : List Byte} (fits : p.length ≤ 60) : WireFrame (frameOf cmd p) := by
  refine ⟨BitVec.ofNat 8 (p.length + 1), cmd :: p, rfl, ?_, ?_⟩ <;>
    simp only [BitVec.toNat_ofNat, List.length_cons] <;> omega

/-- The bytes of a built frame, one by one (R160). -/
theorem build_txbuf_head (cmd : Byte) (p : List Byte) (fits : p.length ≤ 60) (s : State) (i : Nat) (hi : i < 64)
    (h : i < p.length + 4) :
    (build cmd p fits s).txbuf[i] = (frameOf cmd p)[i]'(by rw [length_frameOf]; exact h) := by
  show (overwrite 0 (frameOf cmd p) s.txbuf)[i] = _
  rw [getElem_overwrite, dif_pos ⟨Nat.zero_le _, by rw [length_frameOf]; omega⟩]
  simp

end Sys2Proof.Machine
end

