-- ==== Sys2Proof/Laws/Step.lean ====
section
/-! SUPPORT. What an operation and a step can do, said once: one case per kind of operation and per kind of input. -/

namespace Sys2Proof.Machine

/-- The encoder operations, as an outcome: a frame built, or the text error (41_encoder.md R160, R166). -/
def EncoderEffect (i : Instr) (s t : State) : Prop :=
  (∃ (cmd : Byte) (p : List Byte) (fits : p.length ≤ 60), t = build cmd p fits s) ∨
    (∃ n, i = .encWtext n ∧ 58 < n.toNat ∧ t = setTxlen 0 (raise .encodeLength s))

/-- Everything an operation can do. -/
theorem exec_cases {i : Instr} {s t : State} (h : exec i s = .next t) :
    t = s ∨ (∃ b, i = .feed b ∧ t = feed b s) ∨ EncoderEffect i s t ∨ (∃ v, t = setResult v s) := by
  cases i with
  | nop => injection h with h; exact .inl h.symm
  | feed b => injection h with h; exact .inr (.inl ⟨b, rfl, h.symm⟩)
  | encWtext n =>
    injection h with h
    refine .inr (.inr (.inl ?_))
    by_cases hn : n.toNat > 58
    · rw [if_pos hn] at h
      exact .inr ⟨n, rfl, hn, h.symm⟩
    · rw [if_neg hn] at h
      exact .inl ⟨_, _, _, h.symm⟩
  | encWreg _ _ => injection h with h; exact .inr (.inr (.inl (.inl ⟨_, _, _, h.symm⟩)))
  | encWvar _ => injection h with h; exact .inr (.inr (.inl (.inl ⟨_, _, _, h.symm⟩)))
  | encWvol _ => injection h with h; exact .inr (.inr (.inl (.inl ⟨_, _, _, h.symm⟩)))
  | encRvar _ => injection h with h; exact .inr (.inr (.inl (.inl ⟨_, _, _, h.symm⟩)))
  | mapL2g _ => injection h with h; exact .inr (.inr (.inr ⟨_, h.symm⟩))
  | mapG2l _ => injection h with h; exact .inr (.inr (.inr ⟨_, h.symm⟩))
  | mapP2l _ => injection h with h; exact .inr (.inr (.inr ⟨_, h.symm⟩))
  | mapL2p _ => injection h with h; exact .inr (.inr (.inr ⟨_, h.symm⟩))
  | mapR2l _ => injection h with h; exact .inr (.inr (.inr ⟨_, h.symm⟩))
  | mapL2r _ => injection h with h; exact .inr (.inr (.inr ⟨_, h.symm⟩))
  | mapP2g _ => injection h with h; exact .inr (.inr (.inr ⟨_, h.symm⟩))
  | mapG2p _ => injection h with h; exact .inr (.inr (.inr ⟨_, h.symm⟩))
  | mapR2g _ => injection h with h; exact .inr (.inr (.inr ⟨_, h.symm⟩))
  | mapG2r _ => injection h with h; exact .inr (.inr (.inr ⟨_, h.symm⟩))
  | mapLin _ => injection h with h; exact .inr (.inr (.inr ⟨_, h.symm⟩))

/-- What one input does to the state it is taken from. -/
inductive InputEffect : Input → State → State → Prop where
  | reset (s : State) : InputEffect .reset s (applyReset s)
  | rejected (a : Access) (s : State) : a.accepted = false → InputEffect (.access a) s (rejectAccess a s)
  | read (off : Offset) (s : State) : InputEffect (.access (.read 4 off)) s (serviceRead off s)
  | operation (w : Word) (i : Instr) (s t : State) : decode w = .ok i → exec i (respond .writeOk s) = .next t →
      InputEffect (.access (.write 4 0x000#10 w)) s t
  | reserved (w : Word) (o : Byte) (s : State) : decode w = .error (.reservedOpcode o) →
      InputEffect (.access (.write 4 0x000#10 w)) s (raise .illegalOp (respond .writeOk s))
  | store (off : Offset) (v : Word) (s : State) : windowWord off ≠ .cmd →
      InputEffect (.access (.write 4 off v)) s (writeWord (windowWord off) v (respond .writeOk s))

/-- The only offset of `CMD` is `0x000` (R65). -/
theorem windowWord_eq_cmd {off : Offset} (h : windowWord off = .cmd) : off = 0x000#10 := by
  apply BitVec.eq_of_toNat_eq
  unfold windowWord windowWordAt at h
  by_contra hne
  rw [if_neg (by simpa using hne)] at h
  repeat' split at h
  all_goals cases h

/-- R62 over the integers. -/
theorem accepted_iff (a : Access) : a.accepted = true ↔ a.size = 4 ∧ a.off.toNat % 4 = 0 := by
  simp only [Access.accepted, Bool.and_eq_true, beq_iff_eq, BitVec.toNat_eq, BitVec.extractLsb'_toNat,
    Nat.shiftRight_zero, BitVec.toNat_ofNat]

theorem accepted_size {a : Access} (h : a.accepted = true) : a.size = 4 := ((accepted_iff a).1 h).1

/-- Everything one input can do. -/
theorem serviceInput_cases {i : Input} {s t : State} (h : serviceInput i s = .next t) : InputEffect i s t := by
  cases i with
  | reset => injection h with h; exact h ▸ .reset s
  | access a =>
    simp only [serviceInput, serviceAccess] at h
    by_cases ha : a.accepted = true
    · rw [if_pos ha] at h
      have hs := accepted_size ha
      cases a with
      | read size off =>
        obtain rfl : size = 4 := hs
        injection h with h
        exact h ▸ .read off s
      | write size off v =>
        obtain rfl : size = 4 := hs
        simp only [serviceWrite] at h
        by_cases hw : windowWord off = .cmd
        · obtain rfl := windowWord_eq_cmd hw
          rw [hw] at h
          simp only [commandWrite] at h
          cases hd : decode v with
          | ok op => rw [hd] at h; exact .operation v op s t hd h
          | error e =>
            cases e with
            | reservedOpcode o => rw [hd] at h; injection h with h; exact h ▸ .reserved v o s hd
        · split at h
          · exact absurd ‹_› hw
          · injection h with h
            exact h ▸ .store off v s hw
    · rw [if_neg ha] at h
      injection h with h
      exact h ▸ .rejected a s (by simpa using ha)

/-- Everything a step can do. -/
theorem step_cases {s t : State} (h : step s = .next t) :
    (s.inputs = [] ∧ t = s) ∨ ∃ i rest, s.inputs = i :: rest ∧ InputEffect i (setInputs rest s) t := by
  simp only [step, serviceNext] at h
  cases hi : s.inputs with
  | nil => rw [hi] at h; injection h with h; exact .inl ⟨rfl, h.symm⟩
  | cons i rest => rw [hi] at h; exact .inr ⟨i, rest, rfl, serviceInput_cases h⟩

/-- A step with an input waiting services it. -/
theorem step_cons {s : State} {i : Input} {rest : List Input} (h : s.inputs = i :: rest) :
    step s = serviceInput i (setInputs rest s) := by
  simp only [step, serviceNext, h]

/-- A `CMD` write (R90). -/
theorem step_command {s : State} {w : Word} {rest : List Input} (h : s.inputs = commandInput w :: rest) :
    step s = commandWrite w (respond .writeOk (setInputs rest s)) := by
  rw [step_cons h]
  rfl

/-- A write to an aligned offset other than `CMD`'s (R68). -/
theorem step_store {s : State} {off : Offset} {v : Word} {rest : List Input}
    (h : s.inputs = .access (.write 4 off v) :: rest) (ha : off.toNat % 4 = 0) (hw : windowWord off ≠ .cmd) :
    step s = .next (writeWord (windowWord off) v (respond .writeOk (setInputs rest s))) := by
  rw [step_cons h]
  refine (if_pos ((accepted_iff (.write 4 off v)).2 ⟨rfl, ha⟩)).trans ?_
  simp only [serviceWrite]

/-- A read of an aligned offset (R67). -/
theorem step_read {s : State} {off : Offset} {rest : List Input}
    (h : s.inputs = .access (.read 4 off) :: rest) (ha : off.toNat % 4 = 0) :
    step s = .next (serviceRead off (setInputs rest s)) := by
  rw [step_cons h]
  exact if_pos ((accepted_iff (.read 4 off)).2 ⟨rfl, ha⟩)

/-- A rejected access (R63). -/
theorem step_rejected {s : State} {a : Access} {rest : List Input} (h : s.inputs = .access a :: rest)
    (ha : ¬(a.size = 4 ∧ a.off.toNat % 4 = 0)) : step s = .next (rejectAccess a (setInputs rest s)) := by
  rw [step_cons h]
  exact if_neg fun hc => ha ((accepted_iff a).1 hc)

/-- One `FEED` of a stream of them. -/
theorem step_feeds {s : State} {b : Byte} {bs : List Byte} {rest : List Input}
    (h : s.inputs = feeds (b :: bs) ++ rest) :
    step s = .next (feed b (respond .writeOk (setInputs (feeds bs ++ rest) s))) := by
  rw [step_command (w := encode (.feed b)) (rest := feeds bs ++ rest) (by rw [h]; rfl), commandWrite]
  simp only [encode, decode, opcField_commandWord, byteField_commandWord]
  rfl

theorem runSteps_zero (s : State) : runSteps 0 s = .next s := rfl

/-- Running one step and then `k`. -/
theorem runSteps_succ {k : Nat} {s t : State} (h : step s = .next t) : runSteps (k + 1) s = runSteps k t := by
  rw [runSteps, h]

/-- `runSteps` is the host's run of the machine. -/
theorem runSteps_eq_run (k : Nat) (s : State) : runSteps k s = Host.Core.run core k s := by
  induction k generalizing s with
  | zero => rfl
  | succ k ih =>
    refine Eq.trans ?_ (Host.Core.run.eq_2 core s k).symm
    cases h : step s with
    | next t => rw [runSteps_succ h, show core.step s = .next t from h]; exact ih t
    | fault r => cases r
    | refused r => rw [runSteps, h, show core.step s = .refused r from h]; rfl

end Sys2Proof.Machine
end

