-- ==== Sys2Proof/Laws/Inputs.lean ====
section
/-! SUPPORT. Servicing an input does not look at the inputs still to come (spec 20_memory.md R73): what it does with others
waiting is the same, with those others left waiting. -/

namespace Sys2Proof.Machine

theorem feedStored_setInputs (n : Count) (l : List Input) (u : State) :
    feedStored n (setInputs l u) = setInputs l (feedStored n u) := by
  unfold feedStored
  rw [show expLen (setInputs l u) = expLen u from rfl, apply_ite (setInputs l), apply_ite (setInputs l)]
  rfl

theorem feedCollecting_setInputs (b : Byte) (l : List Input) (s : State) :
    feedCollecting b (setInputs l s) = setInputs l (feedCollecting b s) := by
  unfold feedCollecting
  by_cases full : s.rxcnt.val = Config.cap
  · rw [dif_pos (show (setInputs l s).rxcnt.val = Config.cap from full), dif_pos full]
    rfl
  · rw [dif_neg (show ¬(setInputs l s).rxcnt.val = Config.cap from full), dif_neg full]
    exact feedStored_setInputs _ l (putRx ⟨s.rxcnt.val, Nat.lt_of_le_of_ne (Nat.le_of_lt_succ s.rxcnt.isLt) full⟩ b s)

theorem feed_setInputs (b : Byte) (l : List Input) (s : State) : feed b (setInputs l s) = setInputs l (feed b s) := by
  unfold feed
  rw [setInputs_dstate]
  cases s.dstate with
  | idle => simp only [feedIdle, apply_ite (setInputs l)]; rfl
  | headerSeen => simp only [feedHeaderSeen, apply_ite (setInputs l)]; rfl
  | collecting => exact feedCollecting_setInputs b l (endFrame s)

theorem exec_setInputs {i : Instr} {s t : State} (l : List Input) (h : exec i s = .next t) :
    exec i (setInputs l s) = .next (setInputs l t) := by
  cases i with
  | feed b => injection h with h; exact congrArg Host.Outcome.next (h ▸ feed_setInputs b l s)
  | encWtext n =>
    by_cases hn : n.toNat ≤ 58
    · rw [exec_encWtext_fits hn] at h ⊢; injection h with h; subst h; rfl
    · rw [exec_encWtext_long (by omega)] at h ⊢; injection h with h; subst h; rfl
  | _ => injection h with h; subst h; rfl

theorem writeWord_setInputs (w : WindowWord) (v : Word) (l : List Input) (s : State) :
    writeWord w v (setInputs l s) = setInputs l (writeWord w v s) := by
  cases w <;> rfl

theorem readWindow_setInputs (off : Offset) (l : List Input) (s : State) :
    readWindow off (setInputs l s) = readWindow off s := by
  unfold readWindow
  cases windowWord off <;> rfl

/-- R73: an input is serviced alike whatever waits behind it. -/
theorem serviceInput_setInputs {i : Input} {s t : State} (l : List Input) (h : serviceInput i s = .next t) :
    serviceInput i (setInputs l s) = .next (setInputs l t) := by
  cases i with
  | reset => injection h with h; subst h; rfl
  | access a =>
    simp only [serviceInput, serviceAccess] at h ⊢
    by_cases ha : a.accepted = true
    · rw [if_pos ha] at h ⊢
      cases a with
      | read size off =>
        injection h with h
        subst h
        simp only [serviceRead, readWindow_setInputs]
        rfl
      | write size off v =>
        simp only [serviceWrite] at h ⊢
        split at h
        · simp only [commandWrite] at h ⊢
          cases hd : decode v with
          | ok op => rw [hd] at h; exact exec_setInputs l h
          | error e => rw [hd] at h; injection h with h; subst h; rfl
        · injection h with h
          subst h
          exact congrArg Host.Outcome.next (writeWord_setInputs (windowWord off) v l (respond .writeOk s))
    · rw [if_neg ha] at h ⊢
      injection h with h
      subst h
      cases a <;> rfl

end Sys2Proof.Machine
end

