-- ==== Sys2Proof/Laws/Mapper.lean ====
section
/-! SUPPORT. The mapper's functions over the integers: the two encodings, and the inverse law as "the thresholds reached". -/

namespace Sys2Proof.Machine

theorem pdec_val (v : Half) : (pdec v).val = min (v.toNat / 256) 100 := by
  simp only [pdec, hiByte_toNat]

theorem rdec_val (v : Half) : (rdec v).val = min (v.toNat - 0x100) 100 := by
  simp only [rdec, Config.winLo, Config.winHi]
  split
  · simp only [Fin.val_zero]; omega
  · split
    · show 100 = _; omega
    · simp only; omega

theorem penc_eq (l : Level) : penc l = BitVec.ofNat 16 (256 * l.val) := by
  have := l.isLt
  apply BitVec.eq_of_toNat_eq
  simp only [penc, BitVec.toNat_shiftLeft, levelHalf_toNat, BitVec.toNat_ofNat, Nat.shiftLeft_eq, Config.levelMax] at *
  omega

theorem renc_eq (l : Level) : renc l = BitVec.ofNat 16 (0x100 + l.val) := rfl

theorem levelHalf_eq (l : Level) : levelHalf l = BitVec.ofNat 16 l.val := rfl

/-- In an increasing list, the count of the entries at or below a value exceeds `k` exactly when entry `k` is at or below
it. -/
theorem lt_countP_iff (l : List Half) (g : Half) (hl : l.Pairwise (· < ·)) (k : Nat) (hk : k < l.length) :
    k < l.countP (fun t => t ≤ g) ↔ l[k] ≤ g := by
  induction l generalizing k with
  | nil => simp at hk
  | cons a rest ih =>
    rw [List.pairwise_cons] at hl
    by_cases ha : a ≤ g
    · rw [List.countP_cons_of_pos (by simpa using ha)]
      cases k with
      | zero => simpa using ha
      | succ k =>
        rw [List.getElem_cons_succ, ← ih hl.2 k (by simpa using hk)]
        omega
    · have h0 : rest.countP (fun t => t ≤ g) = 0 := by
        rw [List.countP_eq_zero]
        intro b hb hbg
        have hab := hl.1 b hb
        simp only [BitVec.le_def, BitVec.lt_def, decide_eq_true_eq] at ha hab hbg
        omega
      rw [List.countP_cons_of_neg (by simpa using ha), h0]
      cases k with
      | zero => simpa using ha
      | succ k =>
        have hk' : k < rest.length := by simpa using hk
        have hab := hl.1 rest[k] (List.getElem_mem hk')
        simp only [List.getElem_cons_succ, BitVec.le_def, BitVec.lt_def] at ha hab ⊢
        omega

/-- The thresholds are strictly increasing (R194). -/
theorem romThList_pairwise : romThList.Pairwise (· < ·) := by
  rw [← List.isChain_iff_pairwise]
  decide +kernel

theorem length_romThList : romThList.length = 100 := by decide +kernel

theorem romTh_toList : romTh.toList = romThList := rfl

theorem romTh_getElem (k : Nat) (hk : k < 100) : romTh[k] = romThList[k]'(by rw [length_romThList]; exact hk) := rfl

theorem romTh_pos : ∀ k : Fin 100, 0 < romTh[k.val].toNat := by decide +kernel

/-- The level of a gain code is `k` or more exactly when the code reaches the threshold of `k` (R194, R195). -/
theorem le_inv_iff (k : Fin 100) (g : Half) : k.val + 1 ≤ (inv g).val ↔ romTh[k.val] ≤ g := by
  unfold inv
  split
  · next h =>
    subst h
    have := romTh_pos k
    simp only [Fin.val_zero, BitVec.le_def, BitVec.toNat_ofNat] at this ⊢
    omega
  · rw [romTh_getElem _ k.isLt]
    exact lt_countP_iff romThList g romThList_pairwise k.val (by rw [length_romThList]; exact k.isLt)

/-- Two levels are equal when the same thresholds are reached. -/
theorem inv_eq_iff (g : Half) (l : Level) : inv g = l ↔ ∀ k : Fin 100, k.val + 1 ≤ l.val ↔ romTh[k.val] ≤ g := by
  constructor
  · rintro rfl k
    exact le_inv_iff k g
  · intro h
    have h1 : ∀ k : Fin 100, k.val + 1 ≤ (inv g).val ↔ k.val + 1 ≤ l.val := fun k => (le_inv_iff k g).trans (h k).symm
    have a := (inv g).isLt
    have b := l.isLt
    simp only [Config.levelMax] at a b
    apply Fin.ext
    rcases Nat.lt_trichotomy (inv g).val l.val with hlt | heq | hgt
    · have := h1 ⟨(inv g).val, by omega⟩
      simp only at this; omega
    · exact heq
    · have := h1 ⟨l.val, by omega⟩
      simp only at this; omega

end Sys2Proof.Machine
end

