-- ==== Sys2Proof/Laws/PerInstr.lean ====
section
/-! SUPPORT. Statements made per operation. `EncodesRow`: an operation's word is covered by the row of the opcode table that
carries its mnemonic, and by no other row. -/

namespace Sys2Proof.Laws.EncodesRow

/-- The rows of the opcode table that cover the word of an operation are exactly the one of its mnemonic (R94). -/
def Statement (i : Instr) : Prop :=
  (opcodeTable.filter fun r => encode i &&& r.mask == r.pattern).map OpcodeRow.mnemonic = [i.mnemonic]

/-- Masking a command word with the table's mask leaves its opcode. -/
theorem commandWord_and_mask (opc b : Byte) (h : Half) :
    commandWord opc b h &&& 0xFF000000#32 = commandWord opc 0#8 0#16 := by
  have bits : ∀ (o c : Byte) (g : Half) (i : Nat), (commandWord o c g).getLsbD i =
      if i < 16 then g.getLsbD i else if i - 16 < 8 then c.getLsbD (i - 16) else o.getLsbD (i - 16 - 8) := by
    intro o c g i
    refine (BitVec.getLsbD_append (x := o ++ c) (y := g)).trans ?_
    rw [BitVec.getLsbD_append]
  have maskBits : ∀ i : Fin 32, (0xFF000000#32 : Word).getLsbD i.val = decide (24 ≤ i.val) := by decide
  apply BitVec.eq_of_getLsbD_eq
  intro i hi
  rw [BitVec.getLsbD_and, bits, bits, maskBits ⟨i, hi⟩]
  by_cases h1 : i < 16
  · simp [h1]; omega
  · by_cases h2 : i - 16 < 8
    · simp [h1, h2]; omega
    · have : 24 ≤ i := by omega
      simp [h1, h2, this]

/-- The covering rows of a command word depend on its opcode alone. -/
theorem filter_commandWord (opc b : Byte) (h : Half) :
    (opcodeTable.filter fun r => commandWord opc b h &&& r.mask == r.pattern) =
      opcodeTable.filter fun r => commandWord opc 0#8 0#16 == r.pattern := by
  apply List.filter_congr
  intro r hr
  have : r.mask = 0xFF000000#32 := by
    have := (by decide : ∀ r ∈ opcodeTable, r.mask = 0xFF000000#32) r hr
    exact this
  rw [this, commandWord_and_mask]

/-- What the lemmas below cite: the rows covering a command word are those covering its opcode alone. -/
theorem row_of (opc b : Byte) (h : Half) (name : String)
    (hrow : (opcodeTable.filter fun r => commandWord opc 0#8 0#16 == r.pattern).map OpcodeRow.mnemonic = [name]) :
    (opcodeTable.filter fun r => commandWord opc b h &&& r.mask == r.pattern).map OpcodeRow.mnemonic = [name] :=
  (congrArg _ (filter_commandWord opc b h)).trans hrow

theorem nop : Statement .nop := row_of 0x00#8 0#8 0#16 "NOP" (by decide)
theorem feed (b : Byte) : Statement (.feed b) := row_of 0x01#8 b 0#16 "FEED" (by decide)
theorem encWreg (reg : Byte) (data : Half) : Statement (.encWreg reg data) :=
  row_of 0x10#8 reg data "ENC.WREG" (by decide)
theorem encWvar (value : Half) : Statement (.encWvar value) := row_of 0x11#8 0#8 value "ENC.WVAR" (by decide)
theorem encWvol (vol : Half) : Statement (.encWvol vol) := row_of 0x12#8 0#8 vol "ENC.WVOL" (by decide)
theorem encWtext (n : Byte) : Statement (.encWtext n) := row_of 0x13#8 n 0#16 "ENC.WTEXT" (by decide)
theorem encRvar (count : Byte) : Statement (.encRvar count) := row_of 0x14#8 count 0#16 "ENC.RVAR" (by decide)
theorem mapL2g (h : Half) : Statement (.mapL2g h) := row_of 0x20#8 0#8 h "MAP.L2G" (by decide)
theorem mapG2l (h : Half) : Statement (.mapG2l h) := row_of 0x21#8 0#8 h "MAP.G2L" (by decide)
theorem mapP2l (h : Half) : Statement (.mapP2l h) := row_of 0x22#8 0#8 h "MAP.P2L" (by decide)
theorem mapL2p (h : Half) : Statement (.mapL2p h) := row_of 0x23#8 0#8 h "MAP.L2P" (by decide)
theorem mapR2l (h : Half) : Statement (.mapR2l h) := row_of 0x24#8 0#8 h "MAP.R2L" (by decide)
theorem mapL2r (h : Half) : Statement (.mapL2r h) := row_of 0x25#8 0#8 h "MAP.L2R" (by decide)
theorem mapP2g (h : Half) : Statement (.mapP2g h) := row_of 0x26#8 0#8 h "MAP.P2G" (by decide)
theorem mapG2p (h : Half) : Statement (.mapG2p h) := row_of 0x27#8 0#8 h "MAP.G2P" (by decide)
theorem mapR2g (h : Half) : Statement (.mapR2g h) := row_of 0x28#8 0#8 h "MAP.R2G" (by decide)
theorem mapG2r (h : Half) : Statement (.mapG2r h) := row_of 0x29#8 0#8 h "MAP.G2R" (by decide)
theorem mapLin (h : Half) : Statement (.mapLin h) := row_of 0x2A#8 0#8 h "MAP.LIN" (by decide)

end Sys2Proof.Laws.EncodesRow
end

