-- ==== Sys2Proof/Laws/Window.lean ====
section
/-! SUPPORT. The register window: what stands at each offset (spec 20_memory.md R64 to R66), that the map and its inverse
agree, and the packed words as sums of their fields. -/

namespace Sys2Proof.Machine

/-- An offset outside every register and buffer of the map is reserved (R64, R65). -/
theorem windowWordAt_reserved {a : Nat} (h : (0x024 ≤ a ∧ a ≤ 0x0FC) ∨ (0x3E8 ≤ a ∧ a ≤ 0x3FC)) :
    windowWordAt a = .reserved := by
  simp (disch := omega) only [windowWordAt, if_neg, dif_neg]

/-- The only offset of `STATUS` is `0x00C` (R65). -/
theorem windowWord_eq_status {off : Offset} (h : windowWord off = .status) : off = 0x00C#10 := by
  apply BitVec.eq_of_toNat_eq
  unfold windowWord windowWordAt at h
  by_contra hne
  rw [if_neg (show ¬off.toNat = 0x00C from hne)] at h
  repeat' split at h
  all_goals cases h

theorem windowWordAt_rxbuf (i : Fin 64) : windowWordAt (0x100 + 4 * i.val) = .rxbuf i := by revert i; decide +kernel

theorem windowWordAt_txbuf (i : Fin 64) : windowWordAt (0x200 + 4 * i.val) = .txbuf i := by revert i; decide +kernel

theorem windowWordAt_textbuf (i : Fin 58) : windowWordAt (0x300 + 4 * i.val) = .textbuf i := by revert i; decide +kernel

/-- Every register and buffer word stands at the offset the address map gives it (R65, R66). -/
theorem windowWord_offsetOf {w : WindowWord} {off : Offset} (h : offsetOf w = some off) : windowWord off = w := by
  have buf : ∀ a : Nat, a < 1024 → windowWord (BitVec.ofNat 10 a) = windowWordAt a := fun a ha => by
    rw [windowWord, BitVec.toNat_ofNat, Nat.mod_eq_of_lt ha]
  cases w <;> simp only [offsetOf, Option.some.injEq, reduceCtorEq] at h <;> subst h <;>
    first
    | rfl
    | rw [buf _ (by omega)]
      first | exact windowWordAt_rxbuf _ | exact windowWordAt_txbuf _ | exact windowWordAt_textbuf _

/-- A text write goes to its own word of `TEXTBUF` and to no other word of the window (R66). -/
theorem windowWord_wrText (i : Fin 58) (v : Word) : ∃ off, wrText i v = wr off v ∧ windowWord off = .textbuf i :=
  ⟨_, rfl, windowWord_offsetOf rfl⟩

/-- A concatenation as a sum (R9). -/
theorem toNat_append_add {n m : Nat} (x : BitVec n) (y : BitVec m) : (x ++ y).toNat = x.toNat * 2 ^ m + y.toNat := by
  rw [BitVec.toNat_append, ← Nat.shiftLeft_add_eq_or_of_lt y.isLt, Nat.shiftLeft_eq]

/-- The low bits of a written word (R68). -/
theorem lowBits_eq (v : Word) (n : Nat) : v.extractLsb' 0 n = BitVec.ofNat n (v.toNat % 2 ^ n) := by
  apply BitVec.eq_of_toNat_eq
  simp [BitVec.extractLsb'_toNat]

/-- `STATUS` as the sum of its fields (R46). -/
theorem statusWord_toNat (s : State) : (statusWord s).toNat =
    s.dstate.code.toNat + 4 * s.fv.toNat + 8 * s.dp.toNat + 16 * s.ccls.code.toNat + 128 * s.pv.toNat +
      256 * s.drop.toNat + 512 * s.eerr.toNat + 1024 * s.illop.toNat + 2048 * s.buserr.toNat := by
  simp only [statusWord, toNat_append_add, BitVec.toNat_ofBool, BitVec.toNat_ofNat]
  omega

/-- `FRAME` as the sum of its fields (R47). -/
theorem frameWord_toNat (s : State) :
    (frameWord s).toNat = s.flen.val + 256 * s.flenb.toNat + 65536 * s.fcmd.toNat := by
  have := s.flen.isLt
  simp only [frameWord, toNat_append_add, BitVec.toNat_ofNat]
  omega

/-- `RXVAR` as the sum of its fields (R48). -/
theorem rxvarWord_toNat (s : State) : (rxvarWord s).toNat = s.rxVdata.toNat + 65536 * s.rxVaddr.toNat := by
  simp only [rxvarWord, toNat_append_add]
  omega

end Sys2Proof.Machine
end

