-- ==== Sys2Proof/Tests/Slice0.lean ====
section
/-! SUPPORT. The model's own tests. Expected values are the spec's worked vectors (95_test_vectors.md, named in each
docstring) and its encoding table; then one witness for the hypotheses of every obligation that has any. -/

namespace Sys2Proof.Tests

open Sys2Proof.Machine

/-- The state an operation answers meets the test. -/
def after (i : Instr) (s : State) (p : State → Bool) : Bool :=
  match exec i s with
  | .next t => p t
  | _ => false

/-- The state one step answers, with the given input delivered next, meets the test. -/
def afterInput (i : Input) (s : State) (p : State → Bool) : Bool :=
  match step { s with inputs := [i] } with
  | .next t => p t
  | _ => false

/-- A decoder in `Collecting` that holds the bytes given. -/
def holding (n : Count) (bs : List Byte) : State :=
  { State.reset with dstate := .collecting, rxcnt := n, rxbuf := overwrite 0 bs State.reset.rxbuf }

/-! ### Well-formedness: what the checks refuse -/

theorem test_wf_read_24_bits_refused : (Access.read 3 0x000#10).wf = false := by decide
theorem test_wf_write_0_bits_refused : (Access.write 0 0x004#10 0#32).wf = false := by decide
theorem test_wf_write_64_bits_refused : (Input.access (.write 8 0x004#10 0#32)).wf = false := by decide
theorem test_wf_sizes_of_the_bus : (Access.read 1 0#10).wf && (Access.read 2 0#10).wf && (Access.read 4 0#10).wf := by decide
theorem test_wf_operation_with_extreme_operands : (Instr.encWreg 0xFF#8 0xFFFF#16).wf = true := by decide

/-! ### Decoding: words written out from the table (R91, R94) -/

theorem test_decode_nop : decode 0b00000000_00000000_0000000000000000#32 = .ok .nop := rfl
theorem test_decode_nop_ignores_fields : decode 0x00FFFFFF#32 = .ok .nop := rfl
theorem test_decode_feed : decode 0b00000001_01011010_0000000000000000#32 = .ok (.feed 0x5A#8) := rfl
theorem test_decode_encWreg : decode 0b00010000_00000011_0001001000110100#32 = .ok (.encWreg 0x03#8 0x1234#16) := rfl
theorem test_decode_encWvar : decode 0b00010001_00000000_0011001000000000#32 = .ok (.encWvar 0x3200#16) := rfl
theorem test_decode_encWvol : decode 0b00010010_00000000_1111111111111011#32 = .ok (.encWvol 0xFFFB#16) := rfl
theorem test_decode_encWtext : decode 0b00010011_00111010_0000000000000000#32 = .ok (.encWtext 58#8) := rfl
theorem test_decode_encRvar : decode 0b00010100_00000001_0000000000000000#32 = .ok (.encRvar 1#8) := rfl
theorem test_decode_mapL2g : decode 0b00100000_00000000_0000000000110010#32 = .ok (.mapL2g 50#16) := rfl
theorem test_decode_mapG2l : decode 0b00100001_00000000_0000010000011001#32 = .ok (.mapG2l 0x0419#16) := rfl
theorem test_decode_mapP2l : decode 0b00100010_00000000_0011001000000000#32 = .ok (.mapP2l 0x3200#16) := rfl
theorem test_decode_mapL2p : decode 0b00100011_00000000_0000000000110010#32 = .ok (.mapL2p 50#16) := rfl
theorem test_decode_mapR2l : decode 0b00100100_00000000_0000000101100100#32 = .ok (.mapR2l 0x0164#16) := rfl
theorem test_decode_mapL2r : decode 0b00100101_00000000_0000000000110010#32 = .ok (.mapL2r 50#16) := rfl
theorem test_decode_mapP2g : decode 0b00100110_00000000_0011001000000000#32 = .ok (.mapP2g 0x3200#16) := rfl
theorem test_decode_mapG2p : decode 0b00100111_00000000_0000010000011001#32 = .ok (.mapG2p 0x0419#16) := rfl
theorem test_decode_mapR2g : decode 0b00101000_00000000_0000000100110010#32 = .ok (.mapR2g 0x0132#16) := rfl
theorem test_decode_mapG2r : decode 0b00101001_00000000_0000010000011001#32 = .ok (.mapG2r 0x0419#16) := rfl
theorem test_decode_mapLin : decode 0b00101010_00000000_0000000010000000#32 = .ok (.mapLin 0x0080#16) := rfl
theorem test_decode_reserved_after_feed : decode 0x02000000#32 = .error (.reservedOpcode 0x02#8) := rfl
theorem test_decode_reserved_after_lin : decode 0x2B000000#32 = .error (.reservedOpcode 0x2B#8) := rfl
theorem test_decodeTableWord_feed : decodeTableWord 32 0x015A0000 = some (.feed 0x5A#8) := rfl
theorem test_decodeTableWord_reserved : decodeTableWord 32 0xFF123456 = none := rfl

/-! ### One step each: the spec's vectors -/

/-- X-1: a `NOP` changes nothing; here, that it leaves `FV` (R230). -/
theorem test_nop_keeps_frame_valid : after .nop { State.reset with fv := true, dp := true } fun t => t.fv && t.dp := by
  decide

/-- D-1. -/
theorem test_feed_header_byte : after (.feed 0x5A#8) State.reset fun t => statusWord t == 0x01#32 && t.rxcnt == 1 := by
  decide

/-- D-8: the last byte of `5A A5 04 82 10 00 01`. -/
theorem test_feed_short_variable_frame :
    after (.feed 0x01#8) (holding 6 [0x5A#8, 0xA5#8, 0x04#8, 0x82#8, 0x10#8, 0x00#8]) fun t =>
      statusWord t == 0x24#32 && frameWord t == 0x00820407#32 && rxvarWord t == 0#32 := by decide +kernel

/-- E-1. -/
theorem test_encWreg : after (.encWreg 0x03#8 0x1234#16) State.reset fun t =>
    txFrame t == [0x5A#8, 0xA5#8, 0x04#8, 0x80#8, 0x03#8, 0x12#8, 0x34#8] && t.txlen == 7 := by decide

/-- E-4. -/
theorem test_encWvar : after (.encWvar 0xFFFF#16) { State.reset with vaddr := 0xABCD#16 } fun t =>
    txFrame t == [0x5A#8, 0xA5#8, 0x05#8, 0x82#8, 0xAB#8, 0xCD#8, 0xFF#8, 0xFF#8] && t.txlen == 8 := by decide

/-- E-8: a negative volume is sent as level 0. -/
theorem test_encWvol_negative : after (.encWvol 0xFFFB#16) { State.reset with vaddr := 0x1000#16 } fun t =>
    txFrame t == [0x5A#8, 0xA5#8, 0x05#8, 0x82#8, 0x10#8, 0x00#8, 0x00#8, 0x00#8] := by decide

/-- E-9: a volume above 100 is sent as level 100. -/
theorem test_encWvol_above : after (.encWvol 0x0065#16) { State.reset with vaddr := 0x1000#16 } fun t =>
    txFrame t == [0x5A#8, 0xA5#8, 0x05#8, 0x82#8, 0x10#8, 0x00#8, 0x64#8, 0x00#8] := by decide

/-- E-12. -/
theorem test_encWtext : after (.encWtext 4#8)
    { State.reset with vaddr := 0x2000#16, textbuf := overwrite 0 [0x48#8, 0x61#8, 0x6C#8, 0x6C#8] State.reset.textbuf }
    fun t => txFrame t == [0x5A#8, 0xA5#8, 0x07#8, 0x82#8, 0x20#8, 0x00#8, 0x48#8, 0x61#8, 0x6C#8, 0x6C#8] := by decide

/-- E-14. -/
theorem test_encWtext_too_long : after (.encWtext 59#8) { State.reset with txlen := 8 } fun t =>
    t.txlen == 0 && statusWord t == 0x200#32 := by decide

/-- E-16. -/
theorem test_encRvar : after (.encRvar 0xFF#8) { State.reset with vaddr := 0x1234#16 } fun t =>
    txFrame t == [0x5A#8, 0xA5#8, 0x04#8, 0x83#8, 0x12#8, 0x34#8, 0xFF#8] && t.txlen == 7 := by decide

/-- L2.3, `MAP.L2G`: 99, and -32768 on the zero floor. -/
theorem test_mapL2g : after (.mapL2g 99#16) State.reset (fun t => t.result == 0x7A4B#16) &&
    after (.mapL2g 0x8000#16) State.reset (fun t => t.result == 0#16) := by decide

/-- L2.3, `MAP.G2L`: each side of a threshold. -/
theorem test_mapG2l : after (.mapG2l 0x043D#16) State.reset (fun t => t.result == 50#16) &&
    after (.mapG2l 0x043E#16) State.reset (fun t => t.result == 51#16) := by decide

/-- L2.3, `MAP.P2L`. -/
theorem test_mapP2l : after (.mapP2l 0x32FF#16) State.reset (fun t => t.result == 50#16) &&
    after (.mapP2l 0x6500#16) State.reset (fun t => t.result == 100#16) := by decide

/-- L2.3, `MAP.L2P`. -/
theorem test_mapL2p : after (.mapL2p 200#16) State.reset (fun t => t.result == 0x6400#16) &&
    after (.mapL2p 0xFF9C#16) State.reset (fun t => t.result == 0#16) := by decide

/-- L2.3, `MAP.R2L`: each end of the window. -/
theorem test_mapR2l : after (.mapR2l 0x0101#16) State.reset (fun t => t.result == 1#16) &&
    after (.mapR2l 0x0165#16) State.reset (fun t => t.result == 100#16) := by decide

/-- L2.3, `MAP.L2R`. -/
theorem test_mapL2r : after (.mapL2r 101#16) State.reset (fun t => t.result == 0x0164#16) &&
    after (.mapL2r 0xFFFF#16) State.reset (fun t => t.result == 0x0100#16) := by decide

/-- L2.3, `MAP.P2G`. -/
theorem test_mapP2g : after (.mapP2g 0x3200#16) State.reset (fun t => t.result == 0x0419#16) &&
    after (.mapP2g 0x00FF#16) State.reset (fun t => t.result == 0#16) := by decide

/-- L2.3, `MAP.G2P`. -/
theorem test_mapG2p : after (.mapG2p 0x0022#16) State.reset (fun t => t.result == 0x0100#16) &&
    after (.mapG2p 0x7A4B#16) State.reset (fun t => t.result == 0x6300#16) := by decide +kernel

/-- L2.3, `MAP.R2G`. -/
theorem test_mapR2g : after (.mapR2g 0x0163#16) State.reset (fun t => t.result == 0x7A4B#16) &&
    after (.mapR2g 0x0100#16) State.reset (fun t => t.result == 0#16) := by decide

/-- L2.3, `MAP.G2R`. -/
theorem test_mapG2r : after (.mapG2r 0x7E9C#16) State.reset (fun t => t.result == 0x0164#16) &&
    after (.mapG2r 0x0022#16) State.reset (fun t => t.result == 0x0101#16) := by decide +kernel

/-- L2.3, `MAP.LIN`. -/
theorem test_mapLin : after (.mapLin 0x0025#16) State.reset (fun t => t.result == 37#16) &&
    after (.mapLin 0x0080#16) State.reset (fun t => t.result == 100#16) := by decide

/-- X-2: a reserved opcode. -/
theorem test_reserved_opcode : afterInput (commandInput 0x02000000#32) State.reset fun t =>
    statusWord t == 0x400#32 && t.resp == some .writeOk := by decide

/-- X-4: `STATUS = 0xFAC` before, `0x0A4` after. -/
theorem test_status_write : afterInput (wr 0x00C#10 0x00000F08#32)
    { State.reset with
      fv := true, dp := true, ccls := .writeVariable, pv := true, drop := true, eerr := true, illop := true,
      buserr := true } fun t => statusWord t == 0x0A4#32 := by decide

/-- X-6: a 16-bit read. -/
theorem test_narrow_read : afterInput (.access (.read 2 0x00C#10)) State.reset fun t =>
    t.buserr && t.resp == some (.readError 0#32) := by decide

/-- X-7: a misaligned write. -/
theorem test_misaligned_write : afterInput (.access (.write 4 0x006#10 0xFFFFFFFF#32)) State.reset fun t =>
    t.buserr && t.vaddr == 0#16 && t.resp == some .writeError := by decide

/-- X-10: a write of a text byte. -/
theorem test_text_write : afterInput (wr 0x30C#10 0x12345641#32) State.reset fun t => t.textbuf[3] == 0x41#8 := by decide

/-- P4: `TEXT "Hall"` is four writes, to the first four text words. -/
theorem test_text_line : text [0x48#8, 0x61#8, 0x6C#8, 0x6C#8] (by decide) =
    [wr 0x300#10 0x48#32, wr 0x304#10 0x61#32, wr 0x308#10 0x6C#32, wr 0x30C#10 0x6C#32] := by decide

/-- R65: the last text word stands at `0x3E4`. -/
theorem test_text_last_word : wrText 57 0x41#32 = wr 0x3E4#10 0x41#32 := by decide

/-- X-13: `HANDLER_EN` keeps six bits. -/
theorem test_handler_write : afterInput (wr 0x010#10 0xFFFFFFFF#32) State.reset fun t =>
    readWindow 0x010#10 t == 0x0000003F#32 := by decide

/-- R270: reset, from a state with everything set. -/
theorem test_reset_input : afterInput .reset { State.reset with drop := true, vaddr := 7#16, resp := some .writeOk }
    fun t => statusWord t == 0#32 && t.vaddr == 0#16 && t.resp == none && t.resets == 1 := by decide

/-- The host's handle delivers its word as the very next operation. -/
theorem test_withFetchWord_runs_next : (match step (State.reset.withFetchWord 32 0x015A0000) with
    | .next t => t.dstate == .headerSeen
    | _ => false) = true := by decide

/-! ### Witnesses: states and operands that meet the hypotheses of each obligation, every clause at its boundary values -/

/-- A wire frame of four bytes (D-6). -/
def readRtcFrame : List Byte := [0x5A#8, 0xA5#8, 0x01#8, 0x81#8]

/-- The reset state with one input waiting. -/
def waiting (i : Input) : State := { State.reset with inputs := [i] }

theorem holding_inv {n : Count} {bs : List Byte}
    (h : 2 ≤ n.val ∧ n.val ≤ 63 ∧ (holding n bs).rxbuf[0] = 0x5A#8 ∧ (holding n bs).rxbuf[1] = 0xA5#8 ∧
      (3 ≤ n.val → (holding n bs).rxbuf[2].toNat ≤ 61 ∧ n.val < (holding n bs).rxbuf[2].toNat + 3)) :
    DecoderInv (holding n bs) := h

theorem witness_DecodeEncodeRoundTrip :
    (Instr.feed 0x5A#8).wf = true ∧ decode 0x015A0000#32 = .ok (.feed 0x5A#8) := ⟨rfl, rfl⟩

theorem witness_OpcodeMapIsTheTable : opcField 0x02000000#32 ∉ ([0x00, 0x01, 0x10, 0x11, 0x12, 0x13, 0x14, 0x20, 0x21, 0x22,
    0x23, 0x24, 0x25, 0x26, 0x27, 0x28, 0x29, 0x2A] : List Byte) := by decide

/-- Both ends of each reserved range decode to nothing. -/
theorem witness_ReservedOpcodeOnlySetsIllop :
    ∀ w ∈ ([0x02000000, 0x0F000000, 0x15000000, 0x1F000000, 0x2B000000, 0xFF123456] : List Word),
      (waiting (commandInput w)).inputs = .access (.write 4 0x000#10 w) :: [] ∧ ∀ i, decode w ≠ .ok i := by
  intro w hw
  refine ⟨rfl, fun i => ?_⟩
  simp only [List.mem_cons, List.not_mem_nil, or_false] at hw
  have refused : decode w = .error (.reservedOpcode (opcField w)) := by
    rcases hw with rfl | rfl | rfl | rfl | rfl | rfl <;> rfl
  rw [refused]
  exact nofun

theorem witness_UnusedFieldsAreIgnored : (0x14#8 ∈ ([0x01, 0x13, 0x14] : List Byte)) ∧
    (0x2A#8 ∈ ([0x11, 0x12, 0x20, 0x21, 0x22, 0x23, 0x24, 0x25, 0x26, 0x27, 0x28, 0x29, 0x2A] : List Byte)) ∧
    ∃ i, decode (commandWord 0x01#8 0x5A#8 0xFFFF#16) = .ok i := ⟨by decide, by decide, _, rfl⟩

theorem witness_StepRunsTheDecodedOperation :
    (waiting (op .nop)).inputs = .access (.write 4 0x000#10 0#32) :: [] ∧ decode 0#32 = .ok .nop := ⟨rfl, rfl⟩

theorem witness_FeedInIdle : State.reset.dstate = .idle ∧ (0x5A#8 : Byte) = 0x5A#8 ∧ (0xA5#8 : Byte) ≠ 0x5A#8 := by decide

theorem witness_FeedInHeaderSeen : { State.reset with dstate := .headerSeen }.dstate = .headerSeen ∧
    (0xA5#8 : Byte) = 0xA5#8 ∧ (0x5A#8 : Byte) ≠ 0xA5#8 := by decide

/-- The discard (`LEN = 62`), completion on the length byte (`LEN = 0`) and at `n = 64` (`LEN = 61`), and more to collect
(`LEN = 61` received, one byte short of the end), each in a state of the decoder's invariant. -/
theorem witness_FeedInCollecting :
    ((holding 2 [0x5A#8, 0xA5#8]).rxbuf.set 2 0x3E#8)[2].toNat + 3 > 64 ∧
      ((holding 2 [0x5A#8, 0xA5#8]).rxbuf.set 2 0x00#8)[2].toNat + 3 = (holding 2 [0x5A#8, 0xA5#8]).rxcnt.val + 1 ∧
      ((holding 63 [0x5A#8, 0xA5#8, 0x3D#8]).rxbuf.set 63 0#8)[2].toNat + 3 = 63 + 1 ∧
      62 + 1 < ((holding 62 [0x5A#8, 0xA5#8, 0x3D#8]).rxbuf.set 62 0#8)[2].toNat + 3 ∧
      DecoderInv (holding 2 [0x5A#8, 0xA5#8]) ∧ DecoderInv (holding 63 [0x5A#8, 0xA5#8, 0x3D#8]) ∧
      DecoderInv (holding 62 [0x5A#8, 0xA5#8, 0x3D#8]) ∧ (holding 63 []).dstate = .collecting := by
  exact ⟨by decide, by decide, by decide, by decide, holding_inv (by decide), holding_inv (by decide),
    holding_inv (by decide), rfl⟩

theorem witness_CapacityGuard : (holding 64 []).dstate = .collecting ∧ (holding 64 []).rxcnt.val = 64 := by decide

/-- Lengths 3 and 64, and one side and the other of `PV`'s bound 8. -/
theorem witness_EmitLatchesTheFrame : ∀ n ∈ ([3, 4, 7, 8, 64] : List Count), 3 ≤ n.val := by decide

/-- The last byte of a frame without a command, and of a frame of each class; of class 2 with seven and with eight bytes. -/
theorem witness_CompletingFeed :
    ∀ f ∈ ([[0x5A, 0xA5, 0x00], [0x5A, 0xA5, 0x01, 0x80], [0x5A, 0xA5, 0x01, 0x81], [0x5A, 0xA5, 0x01, 0x7F],
        [0x5A, 0xA5, 0x01, 0x84], [0x5A, 0xA5, 0x04, 0x82, 0x10, 0x00, 0x01],
        [0x5A, 0xA5, 0x05, 0x83, 0x10, 0x00, 0x01, 0x64]] : List (List Byte)),
      ∃ (b : Byte) (n : Count), n.val + 1 = f.length ∧ f.getLast? = some b ∧ DecoderInv (holding n f.dropLast) ∧
        (holding n f.dropLast).dstate = .collecting ∧ n.val < 64 ∧
        ((holding n f.dropLast).rxbuf.setIfInBounds n.val b)[2].toNat + 3 = n.val + 1 := by
  intro f hf
  simp only [List.mem_cons, List.not_mem_nil, or_false] at hf
  rcases hf with rfl | rfl | rfl | rfl | rfl | rfl | rfl
  · exact ⟨0x00, 2, by decide, rfl, holding_inv (by decide), rfl, by decide, by decide⟩
  · exact ⟨0x80, 3, by decide, rfl, holding_inv (by decide), rfl, by decide, by decide⟩
  · exact ⟨0x81, 3, by decide, rfl, holding_inv (by decide), rfl, by decide, by decide⟩
  · exact ⟨0x7F, 3, by decide, rfl, holding_inv (by decide), rfl, by decide, by decide⟩
  · exact ⟨0x84, 3, by decide, rfl, holding_inv (by decide), rfl, by decide, by decide⟩
  · exact ⟨0x01, 6, by decide, rfl, holding_inv (by decide), rfl, by decide, by decide⟩
  · exact ⟨0x64, 7, by decide, rfl, holding_inv (by decide), rfl, by decide, by decide⟩

/-- A `FEED` that emits. -/
theorem witness_EveryFeedCompletes :
    ∃ t, exec (.feed 0x00#8) (holding 2 [0x5A#8, 0xA5#8]) = .next t ∧ t.fv = true := ⟨_, rfl, by decide⟩

/-- A `FEED` in each of the three states, one that does not emit, and one that finds `DROP` set. -/
theorem witness_FeedFrame :
    (∃ t, exec (.feed 0x00#8) State.reset = .next t ∧ State.reset.dstate = .idle ∧ t.fv = false) ∧
      (∃ t, exec (.feed 0x00#8) { State.reset with dstate := .headerSeen, drop := true } = .next t ∧ t.drop = true) ∧
      ∃ t, exec (.feed 0x05#8) (holding 2 [0x5A#8, 0xA5#8]) = .next t ∧ t.dstate = .collecting :=
  ⟨⟨_, rfl, rfl, rfl⟩, ⟨_, rfl, by decide⟩, ⟨_, rfl, by decide⟩⟩

/-- Inputs that are neither a `FEED` nor a reset, and a step. -/
theorem witness_OnlyFeedAndReset :
    (∀ i ∈ (waiting (op .nop)).inputs, i ≠ .reset ∧ ¬ IsFeed i) ∧
      ∃ t, step (waiting (op .nop)) = .next t ∧ runSteps 1 (waiting (op .nop)) = .next t := by
  refine ⟨?_, _, rfl, rfl⟩
  intro i hi
  obtain rfl : i = op .nop := by simpa [waiting] using hi
  refine ⟨by decide, ?_⟩
  rintro ⟨w, b, hw, hd⟩
  injection hw with hw
  injection hw with _ _ hw
  subst hw
  cases hd

/-- A `FEED` that emits changes the latched registers. -/
theorem witness_LatchedRegisters :
    ∃ t, step { holding 2 [0x5A#8, 0xA5#8] with inputs := [op (.feed 0x00#8)] } = .next t ∧
      ¬ SameLatched { holding 2 [0x5A#8, 0xA5#8] with inputs := [op (.feed 0x00#8)] } t :=
  ⟨_, rfl, fun h => absurd h.1 (by decide)⟩

theorem reset_inv : FcgmInv State.reset := by
  refine ⟨rfl, ?_, ?_, .inl ⟨rfl, rfl, rfl, rfl, rfl, rfl, rfl, rfl⟩⟩ <;> exact fun h => by cases h

theorem witness_StepKeepsTheInvariant : FcgmInv State.reset ∧ step State.reset = .next State.reset := ⟨reset_inv, rfl⟩

/-- The shortest and the longest frame the decoder accepts are wire frames. -/
theorem witness_IdleDecoder :
    WireFrame [0x5A#8, 0xA5#8, 0x00#8] ∧ WireFrame (0x5A#8 :: 0xA5#8 :: 0x3D#8 :: List.replicate 61 0#8) ∧
      State.reset.dstate = .idle ∧
      { State.reset with inputs := feeds readRtcFrame }.inputs = feeds readRtcFrame ++ [] ∧
      ∃ u, runSteps 1 { State.reset with inputs := feeds readRtcFrame } = .next u :=
  ⟨⟨0#8, [], rfl, by decide, rfl⟩, ⟨0x3D#8, List.replicate 61 0#8, rfl, by decide, by decide⟩, rfl, rfl, _, rfl⟩

/-- Both clauses: the header byte behind a doubled one, and a whole frame behind it. -/
theorem witness_DoubledHeaderByte : State.reset.dstate = .idle ∧
    { State.reset with inputs := feeds [0x5A#8, 0x5A#8, 0xA5#8] }.inputs = feeds [0x5A#8, 0x5A#8, 0xA5#8] ++ [] ∧
    WireFrame readRtcFrame ∧
    { State.reset with inputs := feeds (0x5A#8 :: 0x5A#8 :: readRtcFrame) }.inputs =
      feeds (0x5A#8 :: 0x5A#8 :: readRtcFrame) ++ [] :=
  ⟨rfl, rfl, ⟨0x01#8, [0x81#8], rfl, by decide, rfl⟩, rfl⟩

/-- The text lengths at each side of the bound. -/
theorem witness_EncWtext : (0#8 : Byte).toNat ≤ 58 ∧ (58#8 : Byte).toNat ≤ 58 ∧ 58 < (59#8 : Byte).toNat ∧
    58 < (0xFF#8 : Byte).toNat := by decide

/-- Two states that differ in everything the encoder may not look at. -/
theorem witness_EncoderIsPure :
    (∃ n, Instr.encWtext 4#8 = .encWtext n) ∧ State.reset.vaddr = { State.reset with result := 7#16 }.vaddr ∧
      State.reset.textbuf = { State.reset with result := 7#16 }.textbuf := ⟨⟨_, rfl⟩, rfl, rfl⟩

theorem witness_BuiltFramesAreWellFormed :
    (∃ r d, Instr.encWreg 3#8 0x1234#16 = .encWreg r d) ∧ (∃ n, Instr.encWtext 58#8 = .encWtext n ∧ n.toNat ≤ 58) ∧
      (∃ t, exec (.encWreg 3#8 0x1234#16) State.reset = .next t) ∧ ∃ t, exec (.encWtext 58#8) State.reset = .next t :=
  ⟨⟨_, _, rfl⟩, ⟨_, rfl, by decide⟩, ⟨_, rfl⟩, ⟨_, rfl⟩⟩

/-- A built frame waiting to be fed to an idle decoder. -/
theorem witness_EncodedFramesDecode : ∃ t, exec (.encWvar 0x3200#16) State.reset = .next t ∧
    { State.reset with inputs := feeds (txFrame t) }.dstate = .idle ∧
    { State.reset with inputs := feeds (txFrame t) }.inputs = feeds (txFrame t) ++ [] :=
  ⟨_, rfl, rfl, (List.append_nil _).symm⟩

/-- Both ends of the level range and each clause of the clamp. -/
theorem witness_MapL2g : ((0 : Fin 101).val : Int) = max 0 (min 100 (0x8000#16 : Half).toInt) ∧
    ((100 : Fin 101).val : Int) = max 0 (min 100 (0x7FFF#16 : Half).toInt) ∧ (0xFFFF#16 : Half).toInt < 0 ∧
    100 ≤ (100#16 : Half).toInt := by decide

theorem witness_MapG2l : (33#16 : Half).toNat ≤ 33 ∧ 32412 ≤ (32412#16 : Half).toNat ∧ 0x8000 ≤ (0x8000#16 : Half).toNat ∧
    (1048#16 : Half).toNat = 1048 := by decide

theorem witness_MapFromLevel : ((100 : Nat) : Int) = max 0 (min 100 (101#16 : Half).toInt) ∧
    ((0 : Nat) : Int) = max 0 (min 100 (0xFF9C#16 : Half).toInt) := by decide

theorem witness_MapToGain : (99 : Fin 101).val = min ((0x63FF#16 : Half).toNat / 256) 100 ∧
    (99 : Fin 101).val = min ((0x0163#16 : Half).toNat - 0x100) 100 ∧ (0x00FF#16 : Half).toNat ≤ 0x00FF ∧
    0x6400 ≤ (0x6400#16 : Half).toNat ∧ (0x0100#16 : Half).toNat ≤ 0x0100 ∧ 0x0164 ≤ (0x0164#16 : Half).toNat := by decide

theorem witness_MapFromGain : (0#16 : Half) = 0#16 ∧ 0x8000 ≤ (0xFFFF#16 : Half).toNat := by decide

theorem witness_MapperIsPure : ∀ i ∈ [Instr.mapL2g 50#16, .mapLin 50#16], i ∈ [Instr.mapL2g 50#16, .mapG2l 50#16,
    .mapP2l 50#16, .mapL2p 50#16, .mapR2l 50#16, .mapL2r 50#16, .mapP2g 50#16, .mapG2p 50#16, .mapR2g 50#16, .mapG2r 50#16,
    .mapLin 50#16] := by decide

theorem witness_ForwardTable : 1 ≤ (1 : Fin 101).val ∧ (99 : Fin 101).val ≤ 99 ∧ (99 : Fin 101) < 100 := by decide

theorem witness_ThresholdTable : (98 : Fin 100) < 99 := by decide

theorem witness_InverseIsTheRoundedLogarithm : (1#16 : Half) ≠ 0#16 := by decide

theorem witness_LevelGainRoundTrip : (0 : Level) ≤ 100 ∧ (0x0022#16 : Half) ≤ 0xFFFF#16 := by decide

theorem witness_CompositionsAgree : (∃ t, exec (.mapP2l 0x3200#16) State.reset = .next t) ∧
    (∃ t, exec (.mapR2l 0x0132#16) State.reset = .next t) ∧ (∃ t, exec (.mapG2l 0x0419#16) State.reset = .next t) ∧
    (∃ t, exec (.mapP2g 0x3200#16) State.reset = .next t) ∧ ∃ t, exec (.mapR2g 0x0132#16) State.reset = .next t :=
  ⟨⟨_, rfl⟩, ⟨_, rfl⟩, ⟨_, rfl⟩, ⟨_, rfl⟩, ⟨_, rfl⟩⟩

/-- A narrow access at an aligned offset, and a word access at each misaligned one. -/
theorem witness_RejectedAccess : (2 : Nat) ≠ 4 ∧ (0x001#10 : Offset).toNat % 4 ≠ 0 ∧ (0x3FE#10 : Offset).toNat % 4 ≠ 0 ∧
    (0x3FF#10 : Offset).toNat % 4 ≠ 0 ∧
    (waiting (.access (.read 2 0x00C#10))).inputs = .access (.read 2 0x00C#10) :: [] ∧
    (waiting (.access (.write 4 0x006#10 0#32))).inputs = .access (.write 4 0x006#10 0#32) :: [] := by decide

theorem witness_ReadsHaveNoSideEffect :
    (0x3FC#10 : Offset).toNat % 4 = 0 ∧ (waiting (rd 0x3FC#10)).inputs = .access (.read 4 0x3FC#10) :: [] := by decide

/-- The ends of both reserved ranges. -/
theorem witness_ReservedOffsets : ∀ off ∈ ([0x024, 0x0FC, 0x3E8, 0x3FC] : List Offset),
    off.toNat % 4 = 0 ∧ ((0x024 ≤ off.toNat ∧ off.toNat ≤ 0x0FC) ∨ (0x3E8 ≤ off.toNat ∧ off.toNat ≤ 0x3FC)) ∧
      (waiting (rd off)).inputs = .access (.read 4 off) :: [] ∧
      (waiting (wr off 1#32)).inputs = .access (.write 4 off 1#32) :: [] := by decide

theorem witness_StatusWrite :
    (waiting ack).inputs = .access (.write 4 0x00C#10 0x00000008#32) :: [] ∧ (0x00000008#32).getLsbD 3 = true := by decide

/-- Each clause: the three that store, at the first and the last text byte, and the first and last offsets of the read-only
words. -/
theorem witness_RegisterWrites : (0x004#10 : Offset).toNat = 0x004 ∧ (0x010#10 : Offset).toNat = 0x010 ∧
    (0x300#10 : Offset).toNat = 0x300 + 4 * (0 : Fin 58).val ∧ (0x3E4#10 : Offset).toNat = 0x300 + 4 * (57 : Fin 58).val ∧
    (0x008#10 : Offset).toNat = 0x008 ∧ ((0x014#10 : Offset).toNat % 4 = 0 ∧ 0x014 ≤ (0x014#10 : Offset).toNat) ∧
    ((0x020#10 : Offset).toNat % 4 = 0 ∧ (0x020#10 : Offset).toNat ≤ 0x020) ∧
    (0x1FC#10 : Offset).toNat = 0x100 + 4 * (63 : Fin 64).val ∧ (0x2FC#10 : Offset).toNat = 0x200 + 4 * (63 : Fin 64).val ∧
    (waiting (wr 0x004#10 1#32)).inputs = .access (.write 4 0x004#10 1#32) :: [] := by decide

/-- Each clause: the nine registers, and the ends of the buffers. -/
theorem witness_WindowReads : (0x000#10 : Offset).toNat = 0x000 ∧ (0x004#10 : Offset).toNat = 0x004 ∧
    (0x008#10 : Offset).toNat = 0x008 ∧ (0x00C#10 : Offset).toNat = 0x00C ∧ (0x010#10 : Offset).toNat = 0x010 ∧
    (0x014#10 : Offset).toNat = 0x014 ∧ (0x018#10 : Offset).toNat = 0x018 ∧ (0x01C#10 : Offset).toNat = 0x01C ∧
    (0x020#10 : Offset).toNat = 0x020 ∧ (0x100#10 : Offset).toNat = 0x100 + 4 * (0 : Fin 64).val ∧
    (0x1FC#10 : Offset).toNat = 0x100 + 4 * (63 : Fin 64).val ∧ (0x2FC#10 : Offset).toNat = 0x200 + 4 * (63 : Fin 64).val ∧
    (0x3E4#10 : Offset).toNat = 0x300 + 4 * (57 : Fin 58).val := by decide

/-- Two different states that read alike: they differ in the model's own fields only. -/
theorem witness_HostReadsBackAllState : ∀ off : Offset, off.toNat % 4 = 0 →
    readWindow off State.reset = readWindow off { State.reset with resets := 1 } := by
  intro off _
  unfold readWindow
  cases windowWord off <;> rfl

theorem witness_ResetLeaves : (waiting .reset).inputs = .reset :: [] := rfl

/-- A step that raises each of the four events, from the reset state's flags, which are 0. -/
theorem witness_EachAccessRaises :
    (∃ t, step (waiting (.access (.read 2 0x00C#10))) = .next t ∧ t.buserr = true) ∧
      (∃ t, step (waiting (commandInput 0x02000000#32)) = .next t ∧ t.illop = true) ∧
      (∃ t, step { holding 2 [0x5A#8, 0xA5#8] with inputs := [op (.feed 0x3E#8)] } = .next t ∧ t.drop = true) ∧
      ∃ t, step (waiting (op (.encWtext 59#8))) = .next t ∧ t.eerr = true :=
  ⟨⟨_, rfl, by decide⟩, ⟨_, rfl, by decide⟩, ⟨_, rfl, by decide⟩, ⟨_, rfl, by decide⟩⟩

/-- A `FEED` that sets `FV` and `DP`, a `NOP` that finds them set, and a step that clears each flag but the event flags. -/
theorem witness_FlagsHaveOnlyTheirWriters_frame_flags :
    (∃ t, step { holding 2 [0x5A#8, 0xA5#8] with handlerEn := 0x3F#6, inputs := [op (.feed 0x00#8)] } = .next t ∧
        t.fv = true ∧ t.dp = true) ∧
      (∃ t, step { State.reset with fv := true, dp := true, inputs := [op .nop] } = .next t ∧ t.fv = true ∧ t.dp = true) ∧
      (∃ t, step { State.reset with fv := true, dp := true, inputs := [op (.feed 0x00#8)] } = .next t ∧ t.fv = false ∧
        t.dp = false) ∧
      (∃ t, step { State.reset with dp := true, inputs := [ack] } = .next t ∧ t.dp = false) ∧
      ∃ t, step { State.reset with pv := true, inputs := [.reset] } = .next t ∧ t.pv = false :=
  ⟨⟨_, rfl, by decide⟩, ⟨_, rfl, by decide⟩, ⟨_, rfl, by decide⟩, ⟨_, rfl, by decide⟩, _, rfl, by decide⟩

/-- The event flags: `CLRERR` clears a set one, and `witness_EachAccessRaises` has a step that sets each. -/
theorem witness_FlagsHaveOnlyTheirWriters_event_flags : ∀ e : Event, ∃ t,
    step { State.reset with drop := true, eerr := true, illop := true, buserr := true, inputs := [clrerr] } = .next t ∧
      e.flag { State.reset with drop := true, eerr := true, illop := true, buserr := true } = true ∧ e.flag t = false := by
  intro e
  refine ⟨_, rfl, ?_⟩
  cases e <;> decide

theorem witness_IrqFollowsDispatch : (waiting (seth 0x3F#6)).inputs = .access (.write 4 0x010#10 0x0000003F#32) :: [] ∧
    (∃ t, exec (.feed 0x00#8) { holding 2 [0x5A#8, 0xA5#8] with handlerEn := 0x20#6 } = .next t ∧ t.fv = true ∧
      t.irq = true) := ⟨by decide, _, rfl, by decide, by decide⟩

/-- An orderly input, with the longest text that fits. -/
theorem witness_OrderlyHost : (∀ i ∈ (waiting (op (.encWtext 58#8))).inputs, Orderly i) ∧
    (∃ t, runSteps 1 (waiting (op (.encWtext 58#8))) = .next t) ∧ State.reset.buserr = false ∧
    State.reset.illop = false ∧ State.reset.eerr = false := by
  refine ⟨?_, ⟨_, rfl⟩, rfl, rfl, rfl⟩
  intro i hi
  obtain rfl : i = op (.encWtext 58#8) := by simpa [waiting] using hi
  refine ⟨by decide, fun off w ha _ => ⟨.encWtext 58#8, ?_, ?_⟩⟩
  · injection ha with _ _ hw
    rw [← hw]; rfl
  · intro n hn
    injection hn with hn
    rw [← hn]; decide

/-- Two inputs in front of a third, a reset among them; a run of them; and a state with none waiting. -/
theorem witness_InputsAreServiced :
    { State.reset with inputs := [op .nop, .reset, Machine.ack] }.inputs = op .nop :: [.reset, Machine.ack] ∧
      { State.reset with inputs := [op .nop, .reset, Machine.ack] }.inputs = [op .nop, .reset] ++ [Machine.ack] ∧
      (∃ t, runSteps 2 { State.reset with inputs := [op .nop, .reset, Machine.ack] } = .next t) ∧ State.reset.inputs = [] :=
  ⟨rfl, rfl, ⟨_, rfl⟩, rfl⟩

/-! ### Every operation completes: an answer of each, from the reset state -/

theorem witness_operations_complete : ∀ i ∈ ([.nop, .feed 0x5A#8, .encWreg 0#8 0#16, .encWvar 0#16, .encWvol 0#16,
    .encWtext 0#8, .encRvar 0#8, .mapL2g 0#16, .mapG2l 0#16, .mapP2l 0#16, .mapL2p 0#16, .mapR2l 0#16, .mapL2r 0#16,
    .mapP2g 0#16, .mapG2p 0#16, .mapR2g 0#16, .mapG2r 0#16, .mapLin 0#16] : List Instr), after i State.reset fun _ => true := by
  decide

end Sys2Proof.Tests
end

section
/-! PROOFS. The machine never stops (spec 00_scope.md R12; 60_exceptions.md R250): every operation, command, input and step
has a next state. One lemma per layer, from the operations up. -/

namespace Sys2Proof.Machine

/-- Every operation completes: each arm of `exec` names its next state, so no operation is left without a meaning. -/
theorem exec_completes (i : Instr) (s : State) : ∃ t, exec i s = .next t := by
  cases i <;> exact ⟨_, rfl⟩

/-- Every word written to `CMD` is serviced: an operation completes, and a reserved opcode raises `IllegalOp` (R95, R231). -/
theorem commandWrite_completes (w : Word) (s : State) : ∃ t, commandWrite w s = .next t := by
  unfold commandWrite
  cases decode w with
  | ok i => exact exec_completes i s
  | error e =>
    cases e with
    | reservedOpcode o => exact ⟨raise .illegalOp s, rfl⟩

/-- Every accepted write completes (R68): only the one to `CMD` does more than store a word. -/
theorem serviceWrite_completes (off : Offset) (v : Word) (s : State) : ∃ t, serviceWrite off v s = .next t := by
  unfold serviceWrite
  split
  · exact commandWrite_completes v (respond .writeOk s)
  · exact ⟨_, rfl⟩

/-- Every access completes; a rejected one gets its error response (R62, R63). -/
theorem serviceAccess_completes (a : Access) (s : State) : ∃ t, serviceAccess a s = .next t := by
  unfold serviceAccess
  by_cases ha : a.accepted = true
  · rw [if_pos ha]
    cases a with
    | read _ off => exact ⟨serviceRead off s, rfl⟩
    | write _ off v => exact serviceWrite_completes off v s
  · exact ⟨rejectAccess a s, if_neg ha⟩

/-- Every input is serviced to completion (R73, R270). -/
theorem serviceInput_completes (i : Input) (s : State) : ∃ t, serviceInput i s = .next t := by
  cases i with
  | access a => exact serviceAccess_completes a s
  | reset => exact ⟨applyReset s, rfl⟩

/-- Every step has a next state: the one the oldest input leaves, or the state itself where none waits. -/
theorem step_completes (s : State) : ∃ t, step s = .next t := by
  cases h : s.inputs with
  | nil => exact ⟨s, by simp only [step, serviceNext, h]⟩
  | cons i rest => rw [step_cons h]; exact serviceInput_completes i (setInputs rest s)

/-- Settles O50: the layers above meet in `step_completes`. -/
theorem theMachineNeverStops : Obligations.TheMachineNeverStops :=
  step_completes

end Sys2Proof.Machine
end

section
/-! PROOFS. The register window as the host sees it (spec 10_state.md R46 to R57; 20_memory.md R66; 60_exceptions.md R258):
each word as the number its fields make, and from the words back to the fields. -/

namespace Sys2Proof.Machine

/-! ### What an offset reads -/

/-- An offset reads the word the address map has for its number. -/
theorem readWindow_at {off : Offset} {a : Nat} (h : off.toNat = a) (s : State) :
    readWindow off s = readWord (windowWordAt a) s := by
  rw [readWindow, windowWord, h]

/-- A count is read as the number it is (R49, R50). -/
theorem countWord_toNat (n : Count) : (BitVec.ofNat 32 n.val).toNat = n.val := by
  rw [BitVec.toNat_ofNat]
  omega

/-- Settles O47: the address map gives the word standing at the offset, and the word's own lemma the sum of its fields. -/
theorem windowReadsTheFields : Obligations.WindowReadsTheFields := by
  intro off s
  refine ⟨fun h => ?cmd, fun h => ?vaddr, fun h => ?result, fun h => ?status, fun h => ?handlerEn, fun h => ?rxcnt,
    fun h => ?frame, fun h => ?rxvar, fun h => ?txlen, fun i h => ?rxbuf, fun i h => ?txbuf, fun i h => ?textbuf⟩ <;>
    rw [readWindow_at h]
  case cmd => rfl
  case vaddr => exact BitVec.toNat_setWidth_of_le (by decide)
  case result => exact BitVec.toNat_setWidth_of_le (by decide)
  case status => exact statusWord_toNat s
  case handlerEn => exact BitVec.toNat_setWidth_of_le (by decide)
  case rxcnt => exact countWord_toNat s.rxcnt
  case frame => exact frameWord_toNat s
  case rxvar => exact rxvarWord_toNat s
  case txlen => exact countWord_toNat s.txlen
  case rxbuf => rw [windowWordAt_rxbuf]; exact BitVec.toNat_setWidth_of_le (by decide)
  case txbuf => rw [windowWordAt_txbuf]; exact BitVec.toNat_setWidth_of_le (by decide)
  case textbuf => rw [windowWordAt_textbuf]; exact BitVec.toNat_setWidth_of_le (by decide)

/-! ### From the words back to the fields -/

/-- The offset of a register or buffer word is aligned (R62, R65). -/
theorem offsetOf_aligned {w : WindowWord} {off : Offset} (h : offsetOf w = some off) : off.toNat % 4 = 0 := by
  cases w <;> simp only [offsetOf, Option.some.injEq, reduceCtorEq] at h <;> subst h <;>
    simp only [BitVec.toNat_ofNat] <;> omega

/-- Only the reserved words, which read 0, have no offset of their own (R64). -/
theorem offsetOf_eq_none {w : WindowWord} (h : offsetOf w = none) : w = .reserved := by
  cases w <;> simp [offsetOf] at h ⊢

/-- Two states that read alike at every aligned offset read alike in every word of the map (R57). -/
theorem readWord_eq_of_readWindow_eq {s t : State}
    (h : ∀ off : Offset, off.toNat % 4 = 0 → readWindow off s = readWindow off t) (w : WindowWord) :
    readWord w t = readWord w s := by
  cases ho : offsetOf w with
  | none => rw [offsetOf_eq_none ho]; rfl
  | some off =>
    rw [← windowWord_offsetOf ho]
    exact (h off (offsetOf_aligned ho)).symm

/-- Equal zero-extended fields are equal. -/
theorem zeroExtended_inj {n : Nat} (hn : n ≤ 32) {x y : BitVec n} (h : x.setWidth 32 = y.setWidth 32) : x = y :=
  BitVec.eq_of_toNat_eq (by rw [← BitVec.toNat_setWidth_of_le hn, h, BitVec.toNat_setWidth_of_le hn])

/-- Equal count words hold equal counts. -/
theorem countWord_inj {n m : Count} (h : BitVec.ofNat 32 n.val = BitVec.ofNat 32 m.val) : n = m :=
  Fin.ext (by rw [← countWord_toNat n, h, countWord_toNat m])

/-- Words put together from parts of the same widths are equal exactly when their parts are. -/
theorem append_inj_iff {n m : Nat} {x x' : BitVec n} {y y' : BitVec m} : x ++ y = x' ++ y' ↔ x = x' ∧ y = y' := by
  constructor
  · intro h
    have hx := congrArg (BitVec.extractLsb' m n) h
    have hy := congrArg (BitVec.extractLsb' 0 m) h
    rw [BitVec.extractLsb'_append_eq_left, BitVec.extractLsb'_append_eq_left] at hx
    rw [BitVec.extractLsb'_append_eq_right, BitVec.extractLsb'_append_eq_right] at hy
    exact ⟨hx, hy⟩
  · rintro ⟨rfl, rfl⟩
    rfl

/-- The code of `DSTATE` names the state (R22). -/
theorem DState.code_injective : Function.Injective DState.code := by
  intro c d
  cases c <;> cases d <;> decide

/-- The code of `CCLS` names the class (R28). -/
theorem CmdClass.code_injective : Function.Injective CmdClass.code := by
  intro c d
  cases c <;> cases d <;> decide

/-- `STATUS` determines its nine fields (R46). -/
theorem statusWord_inj {s t : State} (h : statusWord t = statusWord s) :
    t.dstate = s.dstate ∧ t.fv = s.fv ∧ t.dp = s.dp ∧ t.ccls = s.ccls ∧ t.pv = s.pv ∧ t.drop = s.drop ∧
      t.eerr = s.eerr ∧ t.illop = s.illop ∧ t.buserr = s.buserr := by
  have h := append_inj_iff.1 h
  simp only [append_inj_iff, BitVec.ofBool_eq_iff_eq, DState.code_injective.eq_iff, CmdClass.code_injective.eq_iff] at h
  obtain ⟨⟨⟨⟨⟨⟨⟨⟨⟨-, buserr⟩, illop⟩, eerr⟩, drop⟩, pv⟩, ccls⟩, dp⟩, fv⟩, dstate⟩ := h
  exact ⟨dstate, fv, dp, ccls, pv, drop, eerr, illop, buserr⟩

/-- `FRAME` determines its three fields (R47). -/
theorem frameWord_inj {s t : State} (h : frameWord t = frameWord s) :
    t.flen = s.flen ∧ t.flenb = s.flenb ∧ t.fcmd = s.fcmd := by
  have hsum := congrArg BitVec.toNat h
  rw [frameWord_toNat, frameWord_toNat] at hsum
  refine ⟨Fin.ext ?_, BitVec.eq_of_toNat_eq ?_, BitVec.eq_of_toNat_eq ?_⟩ <;> omega

/-- Settles O48: the packed words determine their fields, and every other word is one field. -/
theorem hostReadsBackAllState : Obligations.HostReadsBackAllState := by
  intro s t h
  have hw := readWord_eq_of_readWindow_eq h
  obtain ⟨dstate, fv, dp, ccls, pv, drop, eerr, illop, buserr⟩ := statusWord_inj (hw .status)
  obtain ⟨flen, flenb, fcmd⟩ := frameWord_inj (hw .frame)
  obtain ⟨rxVaddr, rxVdata⟩ := append_inj_iff.1 (hw .rxvar)
  have rxcnt : t.rxcnt = s.rxcnt := countWord_inj (hw .rxcnt)
  have txlen : t.txlen = s.txlen := countWord_inj (hw .txlen)
  have handlerEn : t.handlerEn = s.handlerEn := zeroExtended_inj (by decide) (hw .handlerEn)
  have vaddr : t.vaddr = s.vaddr := zeroExtended_inj (by decide) (hw .vaddr)
  have result : t.result = s.result := zeroExtended_inj (by decide) (hw .result)
  have rxbuf : t.rxbuf = s.rxbuf := Vector.ext fun i hi => zeroExtended_inj (by decide) (hw (.rxbuf ⟨i, hi⟩))
  have txbuf : t.txbuf = s.txbuf := Vector.ext fun i hi => zeroExtended_inj (by decide) (hw (.txbuf ⟨i, hi⟩))
  have textbuf : t.textbuf = s.textbuf := Vector.ext fun i hi => zeroExtended_inj (by decide) (hw (.textbuf ⟨i, hi⟩))
  exact ⟨⟨dstate, rxcnt, rxbuf⟩, ⟨flen, flenb, fcmd, ccls, pv, rxVaddr, rxVdata⟩, fv, dp, drop, eerr, illop, buserr,
    handlerEn, vaddr, result, txlen, txbuf, textbuf⟩

end Sys2Proof.Machine
end

section
/-! PROOFS. Who writes the flags (spec 10_state.md R56, with R26, R27, R29 and R34 to R37): what one input can do to `FV`,
`DP` and `PV`, and what it can do to the event flags, each said once; every writer and clearer is read off from the two. -/

namespace Sys2Proof.Machine

/-! ### Which inputs are a `FEED` -/

/-- A `CMD` write is a `FEED` exactly when its word decodes to one. -/
theorem isFeed_command_iff (w : Word) : IsFeed (.access (.write 4 0x000#10 w)) ↔ ∃ b, decode w = .ok (.feed b) := by
  constructor
  · rintro ⟨w', b, hi, hd⟩
    cases hi
    exact ⟨b, hd⟩
  · rintro ⟨b, hd⟩
    exact ⟨w, b, rfl, hd⟩

/-- A `FEED` is an accepted write to `CMD`. -/
theorem IsFeed.eq_write {i : Input} (h : IsFeed i) : ∃ w, i = .access (.write 4 0x000#10 w) := by
  obtain ⟨w, _, hi, _⟩ := h
  exact ⟨w, hi⟩

theorem not_isFeed_read (off : Offset) : ¬ IsFeed (.access (.read 4 off)) := fun h => by
  obtain ⟨w, hw⟩ := h.eq_write
  cases hw

theorem not_isFeed_of_rejected {a : Access} (ha : a.accepted = false) : ¬ IsFeed (.access a) := fun h => by
  obtain ⟨w, hw⟩ := h.eq_write
  cases hw
  cases ha

theorem not_isFeed_of_store {off : Offset} (v : Word) (hw : windowWord off ≠ .cmd) :
    ¬ IsFeed (.access (.write 4 off v)) := fun h => by
  obtain ⟨w, hw'⟩ := h.eq_write
  cases hw'
  exact hw rfl

/-! ### `FV`, `DP` and `PV` -/

/-- `FV`, `DP` and `PV` are the same in two states. -/
structure SameFrameFlags (s t : State) : Prop where
  fv : t.fv = s.fv
  dp : t.dp = s.dp
  pv : t.pv = s.pv

/-- Answering the bus leaves them. -/
theorem SameFrameFlags.of_respond {r : Response} {s t : State} (h : SameFrameFlags (respond r s) t) : SameFrameFlags s t :=
  ⟨h.fv, h.dp, h.pv⟩

/-- What one input does to `FV`, `DP` and `PV`. -/
inductive FrameFlagEffect (s t : State) : Input → Prop where
  | reset : t.fv = false → t.dp = false → FrameFlagEffect s t .reset
  | emitted {i : Input} (n : Count) (u : State) : IsFeed i → u.handlerEn = s.handlerEn → t = emit n u →
      FrameFlagEffect s t i
  | notEmitted {i : Input} : IsFeed i → t.fv = false → t.dp = false → t.pv = s.pv → FrameFlagEffect s t i
  | kept {i : Input} : ¬ IsFeed i → i ≠ .reset → SameFrameFlags s t → FrameFlagEffect s t i
  | statusWrite (w : Word) : ¬ IsFeed (.access (.write 4 0x00C#10 w)) → SameFrameFlags (clearFlags w s) t →
      FrameFlagEffect s t (.access (.write 4 0x00C#10 w))

/-- A `FEED` emits, or leaves no frame and `PV` as it was (R121 to R127). -/
theorem feed_frameFlags (b : Byte) (s : State) :
    (∃ n u, u.handlerEn = s.handlerEn ∧ feed b s = emit n u) ∨
      ((feed b s).fv = false ∧ (feed b s).dp = false ∧ (feed b s).pv = s.pv) := by
  obtain ⟨-, -, h⟩ | ⟨-, -, h⟩ | ⟨-, -, h⟩ | ⟨-, -, h⟩ | ⟨-, -, h⟩ |
    ⟨-, i, n, -, -, u, rfl, ⟨-, h⟩ | ⟨-, -, h⟩ | ⟨-, -, h⟩⟩ := feed_cases b s <;> rw [h]
  · exact .inr ⟨rfl, rfl, rfl⟩
  · exact .inr ⟨rfl, rfl, rfl⟩
  · exact .inr ⟨rfl, rfl, rfl⟩
  · exact .inr ⟨rfl, rfl, rfl⟩
  · exact .inr ⟨rfl, rfl, rfl⟩
  · exact .inr ⟨rfl, rfl, rfl⟩
  · exact .inl ⟨n, putRx i b (endFrame s), rfl, rfl⟩
  · exact .inr ⟨rfl, rfl, rfl⟩

/-- No operation but `FEED` writes `FV`, `DP` or `PV` (R26, R27, R29). -/
theorem exec_sameFrameFlags {i : Instr} {s t : State} (hi : ∀ b, i ≠ .feed b) (h : exec i s = .next t) :
    SameFrameFlags s t := by
  obtain rfl | ⟨b, hb, -⟩ | (⟨_, _, _, rfl⟩ | ⟨_, -, -, rfl⟩) | ⟨_, rfl⟩ := exec_cases h
  · exact ⟨rfl, rfl, rfl⟩
  · exact absurd hb (hi b)
  all_goals exact ⟨rfl, rfl, rfl⟩

/-- A store to any word but `STATUS` writes none of them (R68). -/
theorem writeWord_sameFrameFlags {w : WindowWord} (hw : w ≠ .status) (v : Word) (s : State) :
    SameFrameFlags s (writeWord w v s) := by
  cases w with
  | status => exact absurd rfl hw
  | _ => exact ⟨rfl, rfl, rfl⟩

/-- Everything one input can do to `FV`, `DP` and `PV`. -/
theorem InputEffect.frameFlags {i : Input} {s t : State} (h : InputEffect i s t) : FrameFlagEffect s t i := by
  cases h with
  | reset => exact .reset rfl rfl
  | rejected a _ ha => exact .kept (not_isFeed_of_rejected ha) nofun ⟨rfl, rfl, rfl⟩
  | read off => exact .kept (not_isFeed_read off) nofun ⟨rfl, rfl, rfl⟩
  | operation w op _ _ hd hx =>
    by_cases hf : ∃ b, op = .feed b
    · obtain ⟨b, rfl⟩ := hf
      have hfeed := (isFeed_command_iff w).2 ⟨b, hd⟩
      obtain rfl : feed b (respond .writeOk s) = t := by injection hx
      obtain ⟨n, u, hu, ht⟩ | ⟨hfv, hdp, hpv⟩ := feed_frameFlags b (respond .writeOk s)
      · exact .emitted n u hfeed hu ht
      · exact .notEmitted hfeed hfv hdp hpv
    · refine .kept (fun hfeed => hf ?_) nofun (exec_sameFrameFlags (not_exists.1 hf) hx).of_respond
      obtain ⟨b, hb⟩ := (isFeed_command_iff w).1 hfeed
      exact ⟨b, by injection hd.symm.trans hb⟩
  | reserved w o _ hd =>
    refine .kept (fun hfeed => ?_) nofun ⟨rfl, rfl, rfl⟩
    obtain ⟨b, hb⟩ := (isFeed_command_iff w).1 hfeed
    cases hd.symm.trans hb
  | store off v _ hw =>
    by_cases hs : windowWord off = .status
    · obtain rfl := windowWord_eq_status hs
      exact .statusWrite v (not_isFeed_of_store v hw) ⟨rfl, rfl, rfl⟩
    · exact .kept (not_isFeed_of_store v hw) nofun (writeWord_sameFrameFlags hs v (respond .writeOk s)).of_respond

/-- `FV` is 1 after a `FEED` only where it emitted, and after another access only where it was 1 (R26). -/
theorem FrameFlagEffect.fv_set {i : Input} {s t : State} (h : FrameFlagEffect s t i) (ht : t.fv = true) :
    (IsFeed i ∧ ∃ n u, t = emit n u) ∨ (¬ IsFeed i ∧ i ≠ .reset ∧ s.fv = true) := by
  cases h with
  | reset hfv => cases hfv.symm.trans ht
  | emitted n u hi _ he => exact .inl ⟨hi, n, u, he⟩
  | notEmitted _ hfv => cases hfv.symm.trans ht
  | kept hi hr hsame => exact .inr ⟨hi, hr, hsame.fv ▸ ht⟩
  | statusWrite w hi hsame => exact .inr ⟨hi, nofun, hsame.fv ▸ ht⟩

/-- `DP` is 1 after a `FEED` only with a frame whose class has a handler, and after another access only where it was 1
(R27). -/
theorem FrameFlagEffect.dp_set {i : Input} {s t : State} (h : FrameFlagEffect s t i) (ht : t.dp = true) :
    (IsFeed i ∧ t.fv = true ∧ s.handlerEn.getLsbD t.ccls.code.toNat = true) ∨
      (¬ IsFeed i ∧ i ≠ .reset ∧ s.dp = true) := by
  cases h with
  | reset _ hdp => cases hdp.symm.trans ht
  | emitted n u hi hu he => subst he; exact .inl ⟨hi, rfl, hu ▸ ht⟩
  | notEmitted _ _ hdp => cases hdp.symm.trans ht
  | kept hi hr hsame => exact .inr ⟨hi, hr, hsame.dp ▸ ht⟩
  | statusWrite w hi hsame =>
    have hc : w1c s.dp (w.getLsbD 3) = true := hsame.dp.symm.trans ht
    exact .inr ⟨hi, nofun, (Bool.and_eq_true_iff.1 hc).1⟩

/-- A set `FV` is cleared only by a `FEED` or reset (R26). -/
theorem FrameFlagEffect.fv_cleared {i : Input} {s t : State} (h : FrameFlagEffect s t i) (hs : s.fv = true)
    (ht : t.fv = false) : IsFeed i ∨ i = .reset := by
  cases h with
  | reset => exact .inr rfl
  | emitted _ _ hi => exact .inl hi
  | notEmitted hi => exact .inl hi
  | kept _ _ hsame => cases hs.symm.trans (hsame.fv.symm.trans ht)
  | statusWrite _ _ hsame => cases hs.symm.trans (hsame.fv.symm.trans ht)

/-- A flag a W1C write clears is one its bit names (R45). -/
theorem bit_of_w1c_cleared {flag bit : Bool} (hs : flag = true) (ht : w1c flag bit = false) : bit = true := by
  subst hs
  simpa [w1c] using ht

/-- A set `DP` is cleared only by a `FEED`, reset or a `STATUS` write of its bit (R27, R233). -/
theorem FrameFlagEffect.dp_cleared {i : Input} {s t : State} (h : FrameFlagEffect s t i) (hs : s.dp = true)
    (ht : t.dp = false) :
    IsFeed i ∨ i = .reset ∨ ∃ w : Word, i = .access (.write 4 0x00C#10 w) ∧ w.getLsbD 3 = true := by
  cases h with
  | reset => exact .inr (.inl rfl)
  | emitted _ _ hi => exact .inl hi
  | notEmitted hi => exact .inl hi
  | kept _ _ hsame => cases hs.symm.trans (hsame.dp.symm.trans ht)
  | statusWrite w _ hsame => exact .inr (.inr ⟨w, rfl, bit_of_w1c_cleared hs (hsame.dp.symm.trans ht)⟩)

/-- `PV` changes only in a `FEED` that emits or at reset (R29). -/
theorem FrameFlagEffect.pv_changed {i : Input} {s t : State} (h : FrameFlagEffect s t i) (hne : t.pv ≠ s.pv) :
    IsFeed i ∧ t.fv = true ∨ i = .reset := by
  cases h with
  | reset => exact .inr rfl
  | emitted n u hi _ he => subst he; exact .inl ⟨hi, rfl⟩
  | notEmitted _ _ _ hpv => exact absurd hpv hne
  | kept _ _ hsame => exact absurd hsame.pv hne
  | statusWrite _ _ hsame => exact absurd hsame.pv hne

/-! ### The event flags -/

/-- The inputs that can raise an event (R241 to R244). -/
def Event.CausedBy (e : Event) (i : Input) : Prop :=
  match e with
  | .frameDiscard => IsFeed i
  | .encodeLength => ∃ w n, IsCommand i w ∧ decode w = .ok (.encWtext n) ∧ 58 < n.toNat
  | .illegalOp => ∃ w o, IsCommand i w ∧ decode w = .error (.reservedOpcode o)
  | .busError => ∃ a, i = .access a ∧ a.accepted = false

/-- The four event flags are the same in two states. -/
def SameEventFlags (s t : State) : Prop := ∀ e : Event, e.flag t = e.flag s

/-- What one input does to the event flags. -/
inductive EventFlagEffect (s t : State) : Input → Prop where
  | kept {i : Input} : SameEventFlags s t → EventFlagEffect s t i
  | raised {i : Input} (e : Event) : e.CausedBy i → SameEventFlags (raise e s) t → EventFlagEffect s t i
  | reset : (∀ e : Event, e.flag t = false) → EventFlagEffect s t .reset
  | statusWrite (w : Word) : SameEventFlags (clearFlags w s) t → EventFlagEffect s t (.access (.write 4 0x00C#10 w))

/-- Raising an event sets its own flag and no other (R240). -/
theorem flag_raise (e e' : Event) (s : State) : e.flag (raise e' s) = (decide (e = e') || e.flag s) := by
  cases e <;> cases e' <;> rfl

/-- A `STATUS` write clears an event's flag by the bit of its cause code (R233). -/
theorem flag_clearFlags (e : Event) (w : Word) (s : State) :
    e.flag (clearFlags w s) = w1c (e.flag s) (w.getLsbD e.cause) := by
  cases e <;> rfl

/-- A `FEED` leaves the event flags, or raises `FrameDiscard` (R125, R127, R242). -/
theorem feed_eventFlags (b : Byte) (s : State) :
    SameEventFlags s (feed b s) ∨ SameEventFlags (raise .frameDiscard s) (feed b s) := by
  obtain ⟨-, -, h⟩ | ⟨-, -, h⟩ | ⟨-, -, h⟩ | ⟨-, -, h⟩ | ⟨-, -, h⟩ |
    ⟨-, i, n, -, -, u, rfl, ⟨-, h⟩ | ⟨-, -, h⟩ | ⟨-, -, h⟩⟩ := feed_cases b s <;> rw [h]
  · exact .inl fun _ => rfl
  · exact .inl fun _ => rfl
  · exact .inl fun _ => rfl
  · exact .inl fun _ => rfl
  · exact .inr fun e => by cases e <;> rfl
  · exact .inr fun e => by cases e <;> rfl
  · exact .inl fun _ => rfl
  · exact .inl fun _ => rfl

/-- A command leaves the event flags, or raises the event its operation is the cause of (R242, R243). -/
theorem command_eventFlags {w : Word} {op : Instr} {s t : State} (hd : decode w = .ok op)
    (h : exec op (respond .writeOk s) = .next t) : EventFlagEffect s t (.access (.write 4 0x000#10 w)) := by
  obtain rfl | ⟨b, rfl, rfl⟩ | (⟨_, _, _, rfl⟩ | ⟨n, rfl, hn, rfl⟩) | ⟨_, rfl⟩ := exec_cases h
  · exact .kept fun _ => rfl
  · obtain hsame | hraised := feed_eventFlags b (respond .writeOk s)
    · exact .kept hsame
    · exact .raised .frameDiscard ⟨w, b, rfl, hd⟩ fun e => (hraised e).trans (by cases e <;> rfl)
  · exact .kept fun _ => rfl
  · exact .raised .encodeLength ⟨w, n, rfl, hd, hn⟩ fun e => by cases e <;> rfl
  · exact .kept fun _ => rfl

/-- A store to any word but `STATUS` leaves the event flags (R68). -/
theorem writeWord_sameEventFlags {w : WindowWord} (hw : w ≠ .status) (v : Word) (s : State) :
    SameEventFlags s (writeWord w v s) := by
  intro e
  cases w with
  | status => exact absurd rfl hw
  | _ => cases e <;> rfl

/-- Everything one input can do to the event flags. -/
theorem InputEffect.eventFlags {i : Input} {s t : State} (h : InputEffect i s t) : EventFlagEffect s t i := by
  cases h with
  | reset => exact .reset fun e => by cases e <;> rfl
  | rejected a _ ha => exact .raised .busError ⟨a, rfl, ha⟩ fun e => by cases e <;> rfl
  | read off => exact .kept fun _ => rfl
  | operation w op _ _ hd hx => exact command_eventFlags hd hx
  | reserved w o _ hd => exact .raised .illegalOp ⟨w, o, rfl, hd⟩ fun e => by cases e <;> rfl
  | store off v _ hw =>
    by_cases hs : windowWord off = .status
    · obtain rfl := windowWord_eq_status hs
      exact .statusWrite v fun _ => rfl
    · exact .kept (writeWord_sameEventFlags hs v (respond .writeOk s))

/-- The flag of an event is set only by an input that can raise it (R241 to R244). -/
theorem EventFlagEffect.flag_set {i : Input} {s t : State} (h : EventFlagEffect s t i) (e : Event)
    (hs : e.flag s = false) (ht : e.flag t = true) : e.CausedBy i := by
  cases h with
  | kept hsame => cases hs.symm.trans ((hsame e).symm.trans ht)
  | raised e' hc hsame =>
    rw [hsame, flag_raise, hs, Bool.or_false, decide_eq_true_iff] at ht
    exact ht ▸ hc
  | reset hclear => cases (hclear e).symm.trans ht
  | statusWrite w hsame =>
    rw [hsame, flag_clearFlags, hs] at ht
    cases ht

/-- A set flag of an event is cleared only by reset or a `STATUS` write of its bit (R34 to R37, R233). -/
theorem EventFlagEffect.flag_cleared {i : Input} {s t : State} (h : EventFlagEffect s t i) (e : Event)
    (hs : e.flag s = true) (ht : e.flag t = false) :
    i = .reset ∨ ∃ w : Word, i = .access (.write 4 0x00C#10 w) ∧ w.getLsbD e.cause = true := by
  cases h with
  | kept hsame => cases hs.symm.trans ((hsame e).symm.trans ht)
  | raised e' _ hsame =>
    rw [hsame, flag_raise, hs, Bool.or_true] at ht
    cases ht
  | reset => exact .inl rfl
  | statusWrite w hsame =>
    rw [hsame, flag_clearFlags] at ht
    exact .inr ⟨w, rfl, bit_of_w1c_cleared hs ht⟩

/-- Settles O52: the step services the input, whose effects on the frame flags and on the event flags name every writer. -/
theorem flagsHaveOnlyTheirWriters : Obligations.FlagsHaveOnlyTheirWriters := by
  intro s t i rest hinputs hstep
  have heffect : InputEffect i (setInputs rest s) t := serviceInput_cases (step_cons hinputs ▸ hstep)
  have hframe := heffect.frameFlags
  have hevent := heffect.eventFlags
  exact ⟨hframe.fv_set, hframe.dp_set, hframe.fv_cleared, hframe.dp_cleared, hframe.pv_changed,
    hevent.flag_set .frameDiscard, hevent.flag_set .encodeLength, hevent.flag_set .illegalOp, hevent.flag_set .busError,
    hevent.flag_cleared⟩

end Sys2Proof.Machine
end

section
/-! PROOFS. Host accesses to the window (spec 20_memory.md R62 to R68): what a rejected access, a read and a write leave.
Each is the step lemma of its kind of access, with the address map saying which word stands at the offset. -/

namespace Sys2Proof.Machine

/-- Settles O42: such an access is not accepted, so the step rejects it, and rejecting it writes `BUSERR` and the bus answer
only. -/
theorem rejectedAccessOnlySetsBuserr : Obligations.RejectedAccessOnlySetsBuserr := by
  intro s rest size off hbad
  have hrejected : ¬(size = 4 ∧ off.toNat % 4 = 0) := fun ⟨hsize, halign⟩ => hbad.elim (· hsize) (· halign)
  exact ⟨fun hread => step_rejected hread hrejected, fun _ hwrite => step_rejected hwrite hrejected⟩

/-- Settles O43: the step answers the read, and the inputs still waiting are nothing a read sees. -/
theorem readsHaveNoSideEffect : Obligations.ReadsHaveNoSideEffect := by
  intro s rest off halign hread
  rw [step_read hread halign, serviceRead, readWindow_setInputs]
  rfl

/-- A write to an aligned offset stores in the word the address map has for the offset's number (R65, R68). -/
theorem step_store_at {s : State} {off : Offset} {v : Word} {rest : List Input} {a : Nat} {w : WindowWord}
    (h : s.inputs = .access (.write 4 off v) :: rest) (hoff : off.toNat = a) (halign : a % 4 = 0)
    (hmap : windowWordAt a = w) (hw : w ≠ .cmd) :
    step s = .next (writeWord w v (respond .writeOk (setInputs rest s))) := by
  subst hoff hmap
  exact step_store h halign hw

/-- A write to a word that stores nothing completes and changes no state (R64, R68). -/
theorem step_store_ignored {s : State} {off : Offset} {v : Word} {rest : List Input} {a : Nat} (w : WindowWord)
    (h : s.inputs = .access (.write 4 off v) :: rest) (hoff : off.toNat = a) (halign : a % 4 = 0)
    (hmap : windowWordAt a = w) (hw : w ≠ .cmd) (hkeeps : ∀ t, writeWord w v t = t) :
    step s = .next { s with inputs := rest, resp := some .writeOk } := by
  rw [step_store_at h hoff halign hmap hw, hkeeps]
  rfl

/-- Settles O44: the address map has no register or buffer word there, and a reserved word reads 0 and stores nothing. -/
theorem reservedOffsetsReadZeroAndIgnoreWrites : Obligations.ReservedOffsetsReadZeroAndIgnoreWrites := by
  intro s rest off halign hrange
  have hmap : windowWordAt off.toNat = .reserved := windowWordAt_reserved hrange
  refine ⟨fun hread => ?read, fun v hwrite => ?write⟩
  case read =>
    rw [readsHaveNoSideEffect s rest off halign hread, readWindow_at rfl, hmap]
    rfl
  case write => exact step_store_ignored .reserved hwrite rfl halign hmap nofun fun _ => rfl

/-- The aligned offsets from `RXCNT`'s to `TXLEN`'s are those of the four read-only registers there (R65). -/
theorem readOnlyOffset_cases {a : Nat} (halign : a % 4 = 0) (hlo : 0x014 ≤ a) (hhi : a ≤ 0x020) :
    a = 0x014 ∨ a = 0x018 ∨ a = 0x01C ∨ a = 0x020 := by
  omega

/-- Settles O46: the address map gives the word at each offset; the writable ones store the low bits, and the read-only ones
nothing. -/
theorem registerWritesStoreTheirField : Obligations.RegisterWritesStoreTheirField := by
  intro s rest off v h
  refine ⟨fun hoff => ?vaddr, fun hoff => ?handlerEn, fun i hoff => ?textbuf, fun hoff => ?readOnly⟩
  case vaddr =>
    rw [← lowBits_eq]
    exact step_store_at h hoff rfl rfl nofun
  case handlerEn =>
    rw [← lowBits_eq]
    exact step_store_at h hoff rfl rfl nofun
  case textbuf =>
    rw [← lowBits_eq]
    exact step_store_at h hoff (by omega) (windowWordAt_textbuf i) nofun
  case readOnly =>
    obtain hoff | ⟨halign, hlo, hhi⟩ | ⟨i, hoff | hoff⟩ := hoff
    · exact step_store_ignored .result h hoff rfl rfl nofun fun _ => rfl
    · obtain hoff | hoff | hoff | hoff := readOnlyOffset_cases halign hlo hhi
      · exact step_store_ignored .rxcnt h hoff rfl rfl nofun fun _ => rfl
      · exact step_store_ignored .frame h hoff rfl rfl nofun fun _ => rfl
      · exact step_store_ignored .rxvar h hoff rfl rfl nofun fun _ => rfl
      · exact step_store_ignored .txlen h hoff rfl rfl nofun fun _ => rfl
    · exact step_store_ignored (.rxbuf i) h hoff (by omega) (windowWordAt_rxbuf i) nofun fun _ => rfl
    · exact step_store_ignored (.txbuf i) h hoff (by omega) (windowWordAt_txbuf i) nofun fun _ => rfl

end Sys2Proof.Machine
end

section
/-! PROOFS. The order of servicing (spec 20_memory.md R73, R75). That servicing an input does not look behind it
(`serviceInput_setInputs`) carries the whole: it also says that servicing leaves the inputs waiting as they are. -/

namespace Sys2Proof.Machine

/-- Setting the inputs to those that wait already changes nothing. -/
theorem setInputs_self {l : List Input} {s : State} (h : s.inputs = l) : setInputs l s = s := by
  subst h
  rfl

/-- Servicing an input leaves the inputs behind it waiting (R73): with them set again the outcome is the same. -/
theorem serviceInput_inputs {i : Input} {s t : State} (h : serviceInput i s = .next t) : t.inputs = s.inputs := by
  have hagain : serviceInput i s = .next (setInputs s.inputs t) := serviceInput_setInputs s.inputs h
  injection h.symm.trans hagain with ht
  rw [ht, setInputs_inputs]

/-- With no input waiting a step changes nothing (R57, R259). -/
theorem step_nil {s : State} (h : s.inputs = []) : step s = .next s := by
  simp only [step, serviceNext, h]

/-- A step takes the oldest input and leaves the others. -/
theorem step_inputs {s t : State} (h : step s = .next t) : t.inputs = s.inputs.tail := by
  cases hs : s.inputs with
  | nil =>
    rw [step_nil hs] at h
    injection h with h
    exact h ▸ hs
  | cons i rest =>
    rw [step_cons hs] at h
    exact serviceInput_inputs h

/-- `k` steps take the first `k` inputs. -/
theorem runSteps_inputs {k : Nat} {s t : State} (h : runSteps k s = .next t) : t.inputs = s.inputs.drop k := by
  induction k generalizing s with
  | zero =>
    injection h with h
    exact h ▸ rfl
  | succ k ih =>
    obtain ⟨u, hu⟩ := step_completes s
    rw [runSteps_succ hu] at h
    rw [ih h, step_inputs hu, List.drop_tail]

/-- Servicing one input and then the others. -/
theorem serviceAll_cons {i : Input} {is : List Input} {s t : State} (h : serviceInput i s = .next t) :
    serviceAll (i :: is) s = serviceAll is t := by
  rw [serviceAll, h]

/-- As many steps as there are inputs in front of `rest` do what servicing those inputs with only `rest` waiting does: by
induction over them, each step being blind to the inputs between its own and `rest`. -/
theorem runSteps_eq_serviceAll (is : List Input) {rest : List Input} {s : State} (h : s.inputs = is ++ rest) :
    runSteps is.length s = serviceAll is (setInputs rest s) := by
  induction is generalizing s with
  | nil => exact congrArg Host.Outcome.next (setInputs_self h).symm
  | cons i is ih =>
    obtain ⟨t, ht⟩ := serviceInput_completes i (setInputs rest s)
    have hwaiting : t.inputs = rest := serviceInput_inputs ht
    have hstep : step s = .next (setInputs (is ++ rest) t) :=
      (step_cons h).trans (serviceInput_setInputs (s := setInputs rest s) (is ++ rest) ht)
    calc runSteps (is.length + 1) s
        = runSteps is.length (setInputs (is ++ rest) t) := runSteps_succ hstep
      _ = serviceAll is (setInputs rest t) := ih rfl
      _ = serviceAll is t := by rw [setInputs_self hwaiting]
      _ = serviceAll (i :: is) (setInputs rest s) := (serviceAll_cons ht).symm

/-- Settles O55: a step is the servicing of the oldest input, and the two inductions over the steps give the run and what it
leaves waiting. -/
theorem inputsAreServicedOneAtATimeInOrder : Obligations.InputsAreServicedOneAtATimeInOrder :=
  ⟨fun _ _ _ h => step_cons h, fun is _ _ h => runSteps_eq_serviceAll is h, fun _ _ _ h => runSteps_inputs h,
    fun _ h => step_nil h⟩

end Sys2Proof.Machine
end

section
/-! PROOFS. The command word (spec 30_encoding.md R90 to R94, R101, R103). The opcode map of R94 is written out once as a
relation, one constructor per row; what the decoder and the encoder do is read off from it, row by row. -/

namespace Sys2Proof

open Sys2Proof.Machine

/-! ### The opcode map as a relation -/

/-- The row of the opcode map (R94) with opcode `opc` names the operation `i` where the fields are `b` and `h`. A field that
is no argument of the operation is one the row ignores (R93). -/
inductive Denotes : Byte → Byte → Half → Instr → Prop where
  | nop (b : Byte) (h : Half) : Denotes 0x00#8 b h .nop
  | feed (b : Byte) (h : Half) : Denotes 0x01#8 b h (.feed b)
  | encWreg (b : Byte) (h : Half) : Denotes 0x10#8 b h (.encWreg b h)
  | encWvar (b : Byte) (h : Half) : Denotes 0x11#8 b h (.encWvar h)
  | encWvol (b : Byte) (h : Half) : Denotes 0x12#8 b h (.encWvol h)
  | encWtext (b : Byte) (h : Half) : Denotes 0x13#8 b h (.encWtext b)
  | encRvar (b : Byte) (h : Half) : Denotes 0x14#8 b h (.encRvar b)
  | mapL2g (b : Byte) (h : Half) : Denotes 0x20#8 b h (.mapL2g h)
  | mapG2l (b : Byte) (h : Half) : Denotes 0x21#8 b h (.mapG2l h)
  | mapP2l (b : Byte) (h : Half) : Denotes 0x22#8 b h (.mapP2l h)
  | mapL2p (b : Byte) (h : Half) : Denotes 0x23#8 b h (.mapL2p h)
  | mapR2l (b : Byte) (h : Half) : Denotes 0x24#8 b h (.mapR2l h)
  | mapL2r (b : Byte) (h : Half) : Denotes 0x25#8 b h (.mapL2r h)
  | mapP2g (b : Byte) (h : Half) : Denotes 0x26#8 b h (.mapP2g h)
  | mapG2p (b : Byte) (h : Half) : Denotes 0x27#8 b h (.mapG2p h)
  | mapR2g (b : Byte) (h : Half) : Denotes 0x28#8 b h (.mapR2g h)
  | mapG2r (b : Byte) (h : Half) : Denotes 0x29#8 b h (.mapG2r h)
  | mapLin (b : Byte) (h : Half) : Denotes 0x2A#8 b h (.mapLin h)

/-- The decoder follows the map: each row's arm, with the fields read from the word. -/
theorem Denotes.decode_eq {opc b : Byte} {h : Half} {i : Instr} (hrow : Denotes opc b h i) :
    decode (commandWord opc b h) = .ok i := by
  cases hrow <;> simp only [decode, opcField_commandWord, byteField_commandWord, halfField_commandWord]

/-- The decoder does no more than the map: an operation it answers is the one of the word's row. -/
theorem denotes_of_decode {w : Word} {i : Instr} (h : decode w = .ok i) :
    Denotes (opcField w) (byteField w) (halfField w) i := by
  generalize hopc : opcField w = opc
  unfold decode at h
  rw [hopc] at h
  split at h <;> cases h <;> constructor

/-- The decoder rejects a word by no other name than its opcode (R95). -/
theorem reservedOpcode_of_decode {w : Word} {e : DecodeError} (h : decode w = .error e) :
    e = .reservedOpcode (opcField w) := by
  unfold decode at h
  split at h <;> cases h
  rfl

/-- The encoder follows the map: the word of an operation has the opcode of each row that names it. -/
theorem Denotes.opcField_encode {opc b : Byte} {h : Half} {i : Instr} (hrow : Denotes opc b h i) :
    opcField (encode i) = opc := by
  cases hrow <;> exact opcField_commandWord ..

/-- Decoding the word of an operation gives the operation back: its fields stand in its own row of the map (R91, R101). -/
theorem decode_encode (i : Instr) : decode (encode i) = .ok i := by
  cases i <;> exact Denotes.decode_eq (by constructor)

/-- The 18 assigned opcodes (R94). -/
def assignedOpcodes : List Byte :=
  [0x00, 0x01, 0x10, 0x11, 0x12, 0x13, 0x14, 0x20, 0x21, 0x22, 0x23, 0x24, 0x25, 0x26, 0x27, 0x28, 0x29, 0x2A]

theorem Denotes.assigned {opc b : Byte} {h : Half} {i : Instr} (hrow : Denotes opc b h i) : opc ∈ assignedOpcodes := by
  cases hrow <;> decide

/-- A word with an opcode of no row is rejected with that opcode (R95). -/
theorem decode_of_not_assigned {w : Word} (h : opcField w ∉ assignedOpcodes) :
    decode w = .error (.reservedOpcode (opcField w)) := by
  cases hd : decode w with
  | ok i => exact absurd (denotes_of_decode hd).assigned h
  | error e => rw [reservedOpcode_of_decode hd]

/-! ### Fields a row ignores (R93) -/

/-- A row whatever its fields hold: no encoding is illegal because of a field. -/
theorem Denotes.any_fields {opc b : Byte} {h : Half} {i : Instr} (hrow : Denotes opc b h i) (b' : Byte) (h' : Half) :
    ∃ i', Denotes opc b' h' i' := by
  cases hrow <;> exact ⟨_, by constructor⟩

/-- Fields that name the same operation under an opcode decode alike. -/
theorem decode_congr {opc b b' : Byte} {h h' : Half} (hsame : ∃ i, Denotes opc b h i ∧ Denotes opc b' h' i) :
    decode (commandWord opc b h) = decode (commandWord opc b' h') := by
  obtain ⟨i, hrow, hrow'⟩ := hsame
  rw [hrow.decode_eq, hrow'.decode_eq]

/-- `FEED`, `ENC.WTEXT` and `ENC.RVAR` ignore `H`. -/
theorem denotes_any_half {opc : Byte} (hopc : opc ∈ ([0x01, 0x13, 0x14] : List Byte)) (b : Byte) (h h' : Half) :
    ∃ i, Denotes opc b h i ∧ Denotes opc b h' i := by
  simp only [List.mem_cons, List.not_mem_nil, or_false] at hopc
  rcases hopc with rfl | rfl | rfl <;> exact ⟨_, by constructor, by constructor⟩

/-- `ENC.WVAR`, `ENC.WVOL` and the operations of the mapper ignore `B`. -/
theorem denotes_any_byte {opc : Byte}
    (hopc : opc ∈ ([0x11, 0x12, 0x20, 0x21, 0x22, 0x23, 0x24, 0x25, 0x26, 0x27, 0x28, 0x29, 0x2A] : List Byte))
    (b b' : Byte) (h : Half) : ∃ i, Denotes opc b h i ∧ Denotes opc b' h i := by
  simp only [List.mem_cons, List.not_mem_nil, or_false] at hopc
  rcases hopc with rfl | rfl | rfl | rfl | rfl | rfl | rfl | rfl | rfl | rfl | rfl | rfl | rfl <;>
    exact ⟨_, by constructor, by constructor⟩

/-! ### The obligations -/

/-- Settles O1: the word of an operation lies in the operation's row of the map, and so does every word that decodes to it. -/
theorem decodeEncodeRoundTrip : Obligations.DecodeEncodeRoundTrip :=
  ⟨fun i _ => decode_encode i, fun _ _ h => (denotes_of_decode h).opcField_encode⟩

/-- Settles O2: each row by its constructor, and the opcodes of no row by `decode_of_not_assigned`. -/
theorem opcodeMapIsTheTable : Obligations.OpcodeMapIsTheTable :=
  ⟨fun b h => ⟨(Denotes.nop b h).decode_eq, (Denotes.feed b h).decode_eq, (Denotes.encWreg b h).decode_eq,
    (Denotes.encWvar b h).decode_eq, (Denotes.encWvol b h).decode_eq, (Denotes.encWtext b h).decode_eq,
    (Denotes.encRvar b h).decode_eq, (Denotes.mapL2g b h).decode_eq, (Denotes.mapG2l b h).decode_eq,
    (Denotes.mapP2l b h).decode_eq, (Denotes.mapL2p b h).decode_eq, (Denotes.mapR2l b h).decode_eq,
    (Denotes.mapL2r b h).decode_eq, (Denotes.mapP2g b h).decode_eq, (Denotes.mapG2p b h).decode_eq,
    (Denotes.mapR2g b h).decode_eq, (Denotes.mapG2r b h).decode_eq, (Denotes.mapLin b h).decode_eq⟩,
   fun _ h => decode_of_not_assigned h⟩

/-- Settles O4: words whose fields name the same operation in a row decode alike, and a row names one whatever its fields. -/
theorem unusedFieldsAreIgnored : Obligations.UnusedFieldsAreIgnored := by
  refine ⟨fun b b' h h' => ⟨?nop, fun _ ho => ?half, fun _ ho => ?byte⟩, fun opc b b' h h' ⟨i, hi⟩ => ?legal⟩
  case nop => exact decode_congr ⟨_, .nop b h, .nop b' h'⟩
  case half => exact decode_congr (denotes_any_half ho b h h')
  case byte => exact decode_congr (denotes_any_byte ho b b' h)
  case legal =>
    have hrow := denotes_of_decode hi
    rw [opcField_commandWord] at hrow
    obtain ⟨i', hrow'⟩ := hrow.any_fields b' h'
    exact ⟨i', hrow'.decode_eq⟩

/-- Settles O5: the encoder puts together each word as written, and the round trip decodes it. -/
theorem writtenWordsDecode : Obligations.WrittenWordsDecode := by
  intro p hp
  have hword : encode p.1 = p.2 := by
    revert p
    decide
  exact ⟨hword, hword ▸ decode_encode p.1⟩

/-- Settles O6: the step is the `CMD` write of the word, which runs the operation decoded. -/
theorem stepRunsTheDecodedOperation : Obligations.StepRunsTheDecodedOperation := by
  intro s rest w i h hd
  rw [step_command h, commandWrite, hd]
  rfl

end Sys2Proof
end

section
/-! PROOFS. `FEED` branch by branch (spec 40_decoder.md R121 to R127): one equation per branch, and what the decoder's
invariant says where a byte is stored in `Collecting`. -/

namespace Sys2Proof.Machine

/-- `FEED` completes with the state `feed` gives (R129). -/
theorem exec_feed (b : Byte) (s : State) : exec (.feed b) s = .next (feed b s) := rfl

/-! ### One equation per branch -/

theorem feed_idle_header {s : State} (hd : s.dstate = .idle) :
    feed 0x5A#8 s = setDecoder .headerSeen 1 (putRx 0 0x5A#8 (endFrame s)) := by
  rw [feed, hd]
  exact if_pos rfl

theorem feed_idle_noise {b : Byte} {s : State} (hd : s.dstate = .idle) (hb : b ≠ 0x5A#8) : feed b s = endFrame s := by
  rw [feed, hd]
  exact if_neg hb

theorem feed_headerSeen_header {s : State} (hd : s.dstate = .headerSeen) :
    feed 0xA5#8 s = setDecoder .collecting 2 (putRx 1 0xA5#8 (endFrame s)) := by
  rw [feed, hd]
  exact if_pos rfl

theorem feed_headerSeen_resync {b : Byte} {s : State} (hd : s.dstate = .headerSeen) (hb : b ≠ 0xA5#8) :
    feed b s = setDecoder .idle 0 (endFrame s) := by
  rw [feed, hd]
  exact if_neg hb

theorem feed_collecting_full {s : State} (b : Byte) (hd : s.dstate = .collecting) (hfull : s.rxcnt.val = 64) :
    feed b s = discardFrame (endFrame s) := by
  rw [feed, hd]
  exact dif_pos hfull

theorem feedStored_discard {n : Count} {u : State} (hlong : 64 < expLen u) : feedStored n u = discardFrame u :=
  if_pos hlong

theorem feedStored_emit {n : Count} {u : State} (hcap : expLen u ≤ 64) (hn : expLen u ≤ n.val) :
    feedStored n u = emit n u := by
  rw [feedStored, if_neg (Nat.not_lt.2 hcap), if_pos hn]

theorem feedStored_collect {n : Count} {u : State} (hcap : expLen u ≤ 64) (hn : n.val < expLen u) :
    feedStored n u = setDecoder .collecting n u := by
  rw [feedStored, if_neg (Nat.not_lt.2 hcap), if_neg (Nat.not_le.2 hn)]

/-! ### The decoder's invariant by the state of the decoder (R136(a) to (c)) -/

theorem decoderInv_idle_iff {s : State} (hd : s.dstate = .idle) : DecoderInv s ↔ s.rxcnt.val = 0 := by
  simp only [DecoderInv, hd]

theorem decoderInv_headerSeen_iff {s : State} (hd : s.dstate = .headerSeen) :
    DecoderInv s ↔ s.rxcnt.val = 1 ∧ s.rxbuf[0] = 0x5A#8 := by
  simp only [DecoderInv, hd]

theorem decoderInv_collecting_iff {s : State} (hd : s.dstate = .collecting) :
    DecoderInv s ↔ 2 ≤ s.rxcnt.val ∧ s.rxcnt.val ≤ 63 ∧ s.rxbuf[0] = 0x5A#8 ∧ s.rxbuf[1] = 0xA5#8 ∧
      (3 ≤ s.rxcnt.val → s.rxbuf[2].toNat ≤ 61 ∧ s.rxcnt.val < s.rxbuf[2].toNat + 3) := by
  simp only [DecoderInv, hd]

/-- Storing a byte leaves the other elements of `RXBUF`. -/
theorem putRx_rxbuf_of_ne {i : Fin 64} {j : Nat} (hj : j < 64) (hne : j ≠ i.val) (b : Byte) (s : State) :
    (putRx i b s).rxbuf[j] = s.rxbuf[j] :=
  Vector.getElem_set_ne i.isLt hj hne.symm

/-- With a byte appended to a frame in progress (R124): the header stays, the new count is not past the expected length, and
that length exceeds the buffer only where the byte is the length byte (R125, R126). -/
theorem DecoderInv.stored {s : State} (h : DecoderInv s) (hd : s.dstate = .collecting) {i : Fin 64}
    (hi : i.val = s.rxcnt.val) (b : Byte) :
    2 ≤ i.val ∧ (putRx i b (endFrame s)).rxbuf[0] = 0x5A#8 ∧ (putRx i b (endFrame s)).rxbuf[1] = 0xA5#8 ∧
      i.val + 1 ≤ expLen (putRx i b (endFrame s)) ∧ (64 < expLen (putRx i b (endFrame s)) → i.val = 2) := by
  obtain ⟨hlo, -, h0, h1, hlen⟩ := (decoderInv_collecting_iff hd).1 h
  have hkept {j : Nat} (hj : j < 64) (hne : j ≠ i.val) : (putRx i b (endFrame s)).rxbuf[j] = s.rxbuf[j] :=
    putRx_rxbuf_of_ne hj hne b (endFrame s)
  refine ⟨by omega, (hkept (by omega) (by omega)).trans h0, (hkept (by omega) (by omega)).trans h1, ?_⟩
  by_cases hfirst : s.rxcnt.val = 2
  · exact ⟨by rw [expLen]; omega, fun _ => by omega⟩
  · rw [expLen, hkept (j := 2) (by omega) (by omega)]
    omega

/-! ### The obligations on the three states of the decoder -/

/-- Settles O7: the two branches of `FEED` in `Idle`. -/
theorem feedInIdleAcceptsOnlyTheFirstHeaderByte : Obligations.FeedInIdleAcceptsOnlyTheFirstHeaderByte := by
  intro b s hd
  refine ⟨fun hb => ?header, fun hb => ?noise⟩
  case header =>
    subst hb
    exact congrArg Host.Outcome.next (feed_idle_header hd)
  case noise => exact congrArg Host.Outcome.next (feed_idle_noise hd hb)

/-- Settles O8: the two branches of `FEED` in `HeaderSeen`. -/
theorem feedInHeaderSeenAcceptsOnlyTheSecondHeaderByte :
    Obligations.FeedInHeaderSeenAcceptsOnlyTheSecondHeaderByte := by
  intro b s hd
  refine ⟨fun hb => ?header, fun hb => ?resync⟩
  case header =>
    subst hb
    exact congrArg Host.Outcome.next (feed_headerSeen_header hd)
  case resync => exact congrArg Host.Outcome.next (feed_headerSeen_resync hd hb)

/-- Settles O9: the byte stored, the three outcomes are those of `feedStored`; that the count never passes the expected
length is what the invariant says of the buffer with the byte in it. -/
theorem feedInCollectingChecksLengthAndCompletes : Obligations.FeedInCollectingChecksLengthAndCompletes := by
  rintro b s n buf room hd hn rfl
  let u : State := putRx ⟨s.rxcnt.val, room⟩ b (endFrame s)
  have hfeed : feed b s = feedStored n u := feed_collecting hd ⟨s.rxcnt.val, room⟩ n rfl hn
  refine ⟨fun hlong => ?discard, fun hcap hdone => ?complete, fun hmore hcap => ?collect, by omega, fun hinv => ?inv⟩
  case discard => exact congrArg Host.Outcome.next (hfeed.trans (feedStored_discard (u := u) hlong))
  case complete => exact congrArg Host.Outcome.next (hfeed.trans (feedStored_emit (u := u) hcap hdone))
  case collect =>
    rw [exec_feed, hfeed, feedStored_collect (u := u) hcap hmore, ← hd]
    rfl
  case inv =>
    obtain ⟨hlo, -, -, hle, hlong⟩ := hinv.stored hd (i := ⟨s.rxcnt.val, room⟩) rfl b
    simp only [expLen, putRx_rxbuf, endFrame_rxbuf] at hlo hle hlong
    omega

/-- Settles O10: the guard's branch, and the invariant's bound on `RXCNT` in `Collecting`. -/
theorem capacityGuardDiscardsAndIsDead : Obligations.CapacityGuardDiscardsAndIsDead := by
  intro b s hd hfull
  refine ⟨congrArg Host.Outcome.next (feed_collecting_full b hd hfull), fun hinv => ?_⟩
  obtain ⟨-, hle, -⟩ := (decoderInv_collecting_iff hd).1 hinv
  omega

end Sys2Proof.Machine
end

section
/-! PROOFS. The frame `emit` latches (spec 40_decoder.md R130, R131, R133, R140 to R145): its class, command byte and payload
fields, each said once. -/

namespace Sys2Proof.Machine

/-! ### Class, command byte and `PV` of a frame -/

/-- A command byte outside the four known ones is of class Unknown (R131). -/
theorem classOf_eq_unknown {c : Byte} (h : c.toNat < 0x80 ∨ 0x83 < c.toNat) : classOf c = .unknown := by
  have hne {k : Byte} (hk : 0x80 ≤ k.toNat ∧ k.toNat ≤ 0x83) : c ≠ k := by
    rintro rfl
    omega
  rw [classOf, if_neg (hne (by decide)), if_neg (hne (by decide)), if_neg (hne (by decide)), if_neg (hne (by decide))]

theorem frameClass_of_eq_three {n : Count} (h : n.val = 3) (buf : Vector Byte 64) : frameClass n buf = .noCommand :=
  if_pos h

theorem frameClass_of_ne_three {n : Count} (h : n.val ≠ 3) (buf : Vector Byte 64) : frameClass n buf = classOf buf[3] :=
  if_neg h

theorem frameCmd_of_eq_three {n : Count} (h : n.val = 3) (buf : Vector Byte 64) : frameCmd n buf = 0x00#8 := if_pos h

theorem frameCmd_of_ne_three {n : Count} (h : n.val ≠ 3) (buf : Vector Byte 64) : frameCmd n buf = buf[3] := if_neg h

/-- `PV` is the frame's being a variable frame with four payload bytes or more (R133). -/
theorem framePv_iff (n : Count) (buf : Vector Byte 64) : framePv n buf = true ↔
    (frameClass n buf = .writeVariable ∨ frameClass n buf = .readVariable) ∧ 8 ≤ n.val := by
  simp only [framePv, Bool.and_eq_true, Bool.or_eq_true, beq_iff_eq, decide_eq_true_eq]

/-! ### The payload fields -/

theorem emit_payload_of_pv {n : Count} {s : State} (h : framePv n s.rxbuf = true) :
    (emit n s).rxVaddr = s.rxbuf[4] ++ s.rxbuf[5] ∧ (emit n s).rxVdata = s.rxbuf[6] ++ s.rxbuf[7] :=
  ⟨if_pos h, if_pos h⟩

theorem emit_payload_of_not_pv {n : Count} {s : State} (h : framePv n s.rxbuf = false) :
    (emit n s).rxVaddr = 0x0000#16 ∧ (emit n s).rxVdata = 0x0000#16 := by
  rw [emit_rxVaddr, emit_rxVdata, h]
  exact ⟨rfl, rfl⟩

/-- A frame of a class without an interpreted payload (R140, R141, R144, R145). -/
theorem emit_of_uninterpreted {n : Count} {s : State} {c : CmdClass} (hc : frameClass n s.rxbuf = c)
    (hwrite : c ≠ .writeVariable) (hread : c ≠ .readVariable) :
    (emit n s).ccls = c ∧ (emit n s).pv = false ∧ (emit n s).rxVaddr = 0#16 ∧ (emit n s).rxVdata = 0#16 ∧
      (emit n s).dp = s.handlerEn.getLsbD c.code.toNat := by
  subst hc
  have hpv : framePv n s.rxbuf = false :=
    Bool.eq_false_iff.2 fun h => ((framePv_iff n s.rxbuf).1 h).1.elim hwrite hread
  obtain ⟨hvaddr, hvdata⟩ := emit_payload_of_not_pv hpv
  exact ⟨rfl, hpv, hvaddr, hvdata, rfl⟩

/-- A variable frame: whether its payload is interpreted is a matter of its length (R142, R143). -/
theorem emit_of_variable {n : Count} {s : State}
    (hc : frameClass n s.rxbuf = .writeVariable ∨ frameClass n s.rxbuf = .readVariable) :
    (8 ≤ n.val → (emit n s).pv = true ∧ (emit n s).rxVaddr = s.rxbuf[4] ++ s.rxbuf[5] ∧
        (emit n s).rxVdata = s.rxbuf[6] ++ s.rxbuf[7]) ∧
      (n.val < 8 → (emit n s).pv = false ∧ (emit n s).rxVaddr = 0#16 ∧ (emit n s).rxVdata = 0#16) := by
  refine ⟨fun hlong => ?interpreted, fun hshort => ?short⟩
  case interpreted =>
    have hpv := (framePv_iff n s.rxbuf).2 ⟨hc, hlong⟩
    exact ⟨hpv, emit_payload_of_pv hpv⟩
  case short =>
    have hpv : framePv n s.rxbuf = false :=
      Bool.eq_false_iff.2 fun h => Nat.not_le.2 hshort ((framePv_iff n s.rxbuf).1 h).2
    exact ⟨hpv, emit_payload_of_not_pv hpv⟩

/-! ### The obligations on `emit` -/

/-- The class codes 2 and 3 are those of the variable frames (R28). -/
theorem code_variable_iff (c : CmdClass) :
    c.code = 2#3 ∨ c.code = 3#3 ↔ c = .writeVariable ∨ c = .readVariable := by
  cases c <;> decide

/-- Settles O11: the class from the command byte, and the payload fields by `PV`. -/
theorem emitLatchesTheFrame : Obligations.EmitLatchesTheFrame := by
  rintro n s c - rfl
  refine ⟨emit n s, rfl, rfl, rfl, fun hn => ?noCommand, fun hn => ?command, ?pv, emit_payload_of_pv,
    emit_payload_of_not_pv, rfl, rfl, rfl, rfl, rfl⟩
  case noCommand => exact ⟨frameCmd_of_eq_three hn s.rxbuf, by rw [emit_ccls, frameClass_of_eq_three hn]; rfl⟩
  case command =>
    rw [emit_fcmd, emit_ccls, frameClass_of_ne_three hn, frameCmd_of_ne_three hn]
    refine ⟨rfl, fun hc => ?_, fun hc => ?_, fun hc => ?_, fun hc => ?_, fun hc => ?_⟩
    case refine_5 => rw [classOf_eq_unknown hc]; rfl
    all_goals rw [hc]; rfl
  case pv => exact (framePv_iff n s.rxbuf).trans (and_congr_left' (code_variable_iff _).symm)

/-- Settles O12: the byte stored, `FEED` emits, and what the frame's class says is read off `emit`. -/
theorem completingFeedClassifiesAndDispatches : Obligations.CompletingFeedClassifiesAndDispatches := by
  rintro b s n buf room hd - rfl rfl hlen
  let i : Fin 64 := ⟨s.rxcnt.val, room⟩
  let m : Count := ⟨s.rxcnt.val + 1, by omega⟩
  let u : State := putRx i b (endFrame s)
  have hexp : expLen u = m.val := hlen
  have hfeed : exec (.feed b) s = .next (emit m u) := by
    rw [exec_feed, feed_collecting hd i m rfl rfl, feedStored_emit (hexp.le.trans (Nat.le_of_lt_succ m.isLt)) hexp.le]
  refine ⟨emit m u, hfeed, rfl, rfl, rfl, rfl, rfl, rfl, rfl, rfl, fun hn => ?noCommand, fun hn => ?command⟩
  case noCommand =>
    obtain ⟨hclass, hrest⟩ := emit_of_uninterpreted (frameClass_of_eq_three (n := m) hn u.rxbuf) nofun nofun
    exact ⟨hclass, frameCmd_of_eq_three (n := m) hn u.rxbuf, hrest⟩
  case command =>
    have hne : m.val ≠ 3 := Nat.ne_of_gt hn
    have hclass {c : Byte} (hc : u.rxbuf[3] = c) : frameClass m u.rxbuf = classOf c :=
      hc ▸ frameClass_of_ne_three hne u.rxbuf
    refine ⟨frameCmd_of_ne_three hne u.rxbuf, fun hc => ?writeRegister, fun hc => ?readRtc, fun hc => ?writeVariable,
      fun hc => ?readVariable, fun hc => ?payload, fun hc => ?unknown⟩
    case writeRegister => exact emit_of_uninterpreted (c := .writeRegister) (hclass hc) nofun nofun
    case readRtc => exact emit_of_uninterpreted (c := .readRtc) (hclass hc) nofun nofun
    case writeVariable => rw [emit_dp, emit_ccls, hclass hc]; exact ⟨rfl, rfl⟩
    case readVariable => rw [emit_dp, emit_ccls, hclass hc]; exact ⟨rfl, rfl⟩
    case payload => exact emit_of_variable (hc.imp hclass hclass)
    case unknown => exact emit_of_uninterpreted ((hclass rfl).trans (classOf_eq_unknown hc)) nofun nofun

end Sys2Proof.Machine
end

section
/-! PROOFS. What a `FEED` and a step leave alone (spec 40_decoder.md R120's frame, R121, R128, R129, R132, R134): a `FEED`
emits or leaves the latched registers, and an input that is neither a `FEED` nor a reset leaves the decoder and the frame. -/

namespace Sys2Proof.Machine

/-! ### What `FEED` leaves -/

/-- A `FEED` emits the frame whose last byte it stores, the count having reached the expected length, or it leaves the latched
registers and no current frame (R121, R126, R129, R132). -/
theorem feed_emits_or_keeps_latched (b : Byte) (s : State) :
    (∃ (i : Fin 64) (n : Count), s.dstate = .collecting ∧ i.val = s.rxcnt.val ∧ n.val = s.rxcnt.val + 1 ∧
      expLen (putRx i b (endFrame s)) ≤ n.val ∧ feed b s = emit n (putRx i b (endFrame s))) ∨
    (SameLatched s (feed b s) ∧ (feed b s).fv = false ∧ (feed b s).dp = false) := by
  obtain ⟨-, -, h⟩ | ⟨-, -, h⟩ | ⟨-, -, h⟩ | ⟨-, -, h⟩ | ⟨-, -, h⟩ |
    ⟨hd, i, n, hi, hn, u, rfl, ⟨-, h⟩ | ⟨-, hdone, h⟩ | ⟨-, -, h⟩⟩ := feed_cases b s
  case inr.inr.inr.inr.inr.inr.inl => exact .inl ⟨i, n, hd, hi, hn, hdone, h⟩
  all_goals rw [h]; exact .inr ⟨⟨rfl, rfl, rfl, rfl, rfl, rfl, rfl⟩, rfl, rfl⟩

/-- The element of `RXBUF` a `FEED` may store (R122 to R124). -/
def storeIndex (s : State) : Nat :=
  match s.dstate with
  | .idle => 0
  | .headerSeen => 1
  | .collecting => s.rxcnt.val

/-- A `FEED` stores its byte there or leaves `RXBUF` (R122 to R124). -/
theorem feed_rxbuf_cases (b : Byte) (s : State) : (feed b s).rxbuf = s.rxbuf ∨
    ∃ i : Fin 64, i.val = storeIndex s ∧ (feed b s).rxbuf = (putRx i b (endFrame s)).rxbuf := by
  unfold storeIndex
  obtain ⟨hd, -, h⟩ | ⟨hd, -, h⟩ | ⟨hd, -, h⟩ | ⟨hd, -, h⟩ | ⟨hd, -, h⟩ |
    ⟨hd, i, n, hi, -, u, rfl, ⟨-, h⟩ | ⟨-, -, h⟩ | ⟨-, -, h⟩⟩ := feed_cases b s <;> rw [h, hd]
  · exact .inl rfl
  · exact .inr ⟨0, rfl, rfl⟩
  · exact .inl rfl
  · exact .inr ⟨1, rfl, rfl⟩
  · exact .inl rfl
  · exact .inr ⟨i, hi, rfl⟩
  · exact .inr ⟨i, hi, rfl⟩
  · exact .inr ⟨i, hi, rfl⟩

/-- A `FEED` leaves every element of `RXBUF` but that one. -/
theorem feed_rxbuf_of_ne (b : Byte) {s : State} {j : Nat} (hj : j < 64) (hne : j ≠ storeIndex s) :
    (feed b s).rxbuf[j] = s.rxbuf[j] := by
  obtain h | ⟨i, hi, h⟩ := feed_rxbuf_cases b s <;> simp only [h]
  exact putRx_rxbuf_of_ne hj (hi ▸ hne) b (endFrame s)

/-- A byte that is noise, resynchronises or meets the guard is not stored (R122, R123, R127). -/
theorem feed_rxbuf_of_refused {b : Byte} {s : State} (h : (s.dstate = .idle ∧ b ≠ 0x5A#8) ∨
    (s.dstate = .headerSeen ∧ b ≠ 0xA5#8) ∨ (s.dstate = .collecting ∧ s.rxcnt.val = 64)) :
    (feed b s).rxbuf = s.rxbuf := by
  obtain ⟨hd, hb⟩ | ⟨hd, hb⟩ | ⟨hd, hfull⟩ := h
  · rw [feed_idle_noise hd hb]; rfl
  · rw [feed_headerSeen_resync hd hb]; rfl
  · rw [feed_collecting_full b hd hfull]; rfl

/-- The registers and buffers that are no part of the decoder are the same in two states. -/
def SameBesideDecoder (s t : State) : Prop :=
  t.handlerEn = s.handlerEn ∧ t.vaddr = s.vaddr ∧ t.result = s.result ∧ t.txlen = s.txlen ∧ t.txbuf = s.txbuf ∧
    t.textbuf = s.textbuf ∧ SameModelFields s t

theorem feed_sameBesideDecoder (b : Byte) (s : State) : SameBesideDecoder s (feed b s) := by
  obtain ⟨-, -, h⟩ | ⟨-, -, h⟩ | ⟨-, -, h⟩ | ⟨-, -, h⟩ | ⟨-, -, h⟩ |
    ⟨-, i, n, -, -, u, rfl, ⟨-, h⟩ | ⟨-, -, h⟩ | ⟨-, -, h⟩⟩ := feed_cases b s
  all_goals rw [h]; exact ⟨rfl, rfl, rfl, rfl, rfl, rfl, rfl, rfl, rfl⟩

/-- A `FEED` never clears `DROP` and leaves the other event flags (R242). -/
theorem feed_keeps_events (b : Byte) (s : State) : (s.drop = true → (feed b s).drop = true) ∧
    (feed b s).eerr = s.eerr ∧ (feed b s).illop = s.illop ∧ (feed b s).buserr = s.buserr := by
  obtain h | h := feed_eventFlags b s
  · exact ⟨(h .frameDiscard).trans, h .encodeLength, h .illegalOp, h .busError⟩
  · exact ⟨fun _ => h .frameDiscard, h .encodeLength, h .illegalOp, h .busError⟩

/-- Settles O13: a `FEED` that leaves a frame is one that emitted it, with the byte stored last. -/
theorem everyFeedCompletesWithAtMostItsOwnFrame : Obligations.EveryFeedCompletesWithAtMostItsOwnFrame := by
  refine fun b s => ⟨feed b s, rfl, fun hfv => ?_⟩
  obtain ⟨i, n, hd, hi, hn, -, h⟩ | ⟨-, hnone, -⟩ := feed_emits_or_keeps_latched b s
  · rw [h, ← hi]
    exact ⟨hd, rfl, hn.trans (by rw [hi]), Vector.getElem?_set_self i.isLt⟩
  · cases hnone.symm.trans hfv

/-- Settles O14: the elements of `RXBUF`, the latched registers, the event flags and all else, each by its own lemma. -/
theorem feedFrame : Obligations.FeedFrame := by
  intro b s t h
  obtain rfl : feed b s = t := by injection h
  obtain ⟨hdrop, heerr, hillop, hbuserr⟩ := feed_keeps_events b s
  obtain ⟨hhandler, hvaddr, hresult, htxlen, htxbuf, htextbuf, hmodel⟩ := feed_sameBesideDecoder b s
  refine ⟨fun j => ⟨fun hd hj => ?_, fun hd hj => ?_, fun hd hj => ?_⟩, feed_rxbuf_of_refused, fun hfv => ?latched,
    hdrop, heerr, hillop, hbuserr, hhandler, hvaddr, hresult, htxlen, htxbuf, htextbuf, hmodel⟩
  case latched =>
    obtain ⟨i, n, -, -, -, -, he⟩ | ⟨hlatched, -, hdp⟩ := feed_emits_or_keeps_latched b s
    · rw [he] at hfv
      cases hfv
    · exact ⟨hlatched, hdp⟩
  all_goals exact feed_rxbuf_of_ne b j.isLt (by simpa only [storeIndex, hd] using hj)

/-! ### What a step leaves -/

/-- The decoder, the latched registers and `FV` are the same in two states, and no dispatch has become pending. -/
structure KeepsFrame (s t : State) : Prop where
  decoder : SameDecoder s t
  latched : SameLatched s t
  fv : t.fv = s.fv
  dp : t.dp = true → s.dp = true

theorem KeepsFrame.refl (s : State) : KeepsFrame s s :=
  ⟨⟨rfl, rfl, rfl⟩, ⟨rfl, rfl, rfl, rfl, rfl, rfl, rfl⟩, rfl, id⟩

/-- Answering the bus leaves them. -/
theorem KeepsFrame.of_respond {r : Response} {s t : State} (h : KeepsFrame (respond r s) t) : KeepsFrame s t :=
  ⟨h.decoder, h.latched, h.fv, h.dp⟩

/-- Taking an input leaves them. -/
theorem KeepsFrame.of_setInputs {l : List Input} {s t : State} (h : KeepsFrame (setInputs l s) t) : KeepsFrame s t :=
  ⟨h.decoder, h.latched, h.fv, h.dp⟩

/-- Raising an event leaves them (R250). -/
theorem keepsFrame_raise (e : Event) (s : State) : KeepsFrame s (raise e s) := by
  cases e <;> exact ⟨⟨rfl, rfl, rfl⟩, ⟨rfl, rfl, rfl, rfl, rfl, rfl, rfl⟩, rfl, id⟩

/-- A store leaves them, but for the `DP` a `STATUS` write may clear (R68, R233). -/
theorem keepsFrame_writeWord (w : WindowWord) (v : Word) (s : State) : KeepsFrame s (writeWord w v s) := by
  cases w with
  | status =>
    exact ⟨⟨rfl, rfl, rfl⟩, ⟨rfl, rfl, rfl, rfl, rfl, rfl, rfl⟩, rfl, fun h => (Bool.and_eq_true_iff.1 h).1⟩
  | _ => exact ⟨⟨rfl, rfl, rfl⟩, ⟨rfl, rfl, rfl, rfl, rfl, rfl, rfl⟩, rfl, id⟩

/-- An operation is a `FEED` or leaves them (R128, R132). -/
theorem exec_feed_or_keepsFrame {i : Instr} {s t : State} (h : exec i s = .next t) :
    (∃ b, i = .feed b ∧ t = feed b s) ∨ KeepsFrame s t := by
  obtain rfl | hfeed | (⟨_, _, _, rfl⟩ | ⟨_, -, -, rfl⟩) | ⟨_, rfl⟩ := exec_cases h
  · exact .inr (.refl t)
  · exact .inl hfeed
  all_goals exact .inr ⟨⟨rfl, rfl, rfl⟩, ⟨rfl, rfl, rfl, rfl, rfl, rfl, rfl⟩, rfl, id⟩

/-- An input leaves the decoder and the frame, or it is a reset or a `FEED` (R128, R132). -/
theorem InputEffect.frame_cases {i : Input} {s t : State} (h : InputEffect i s t) :
    KeepsFrame s t ∨ (i = .reset ∧ t = applyReset s) ∨ (IsFeed i ∧ ∃ b, t = feed b (respond .writeOk s)) := by
  cases h with
  | reset => exact .inr (.inl ⟨rfl, rfl⟩)
  | rejected a => exact .inl (keepsFrame_raise .busError (respond (errorResponse a) s)).of_respond
  | read off => exact .inl (KeepsFrame.refl (serviceRead off s)).of_respond
  | operation w op _ _ hd hx =>
    obtain ⟨b, rfl, ht⟩ | hkeeps := exec_feed_or_keepsFrame hx
    · exact .inr (.inr ⟨(isFeed_command_iff w).2 ⟨b, hd⟩, b, ht⟩)
    · exact .inl hkeeps.of_respond
  | reserved w o => exact .inl (keepsFrame_raise .illegalOp (respond .writeOk s)).of_respond
  | store off v => exact .inl (keepsFrame_writeWord (windowWord off) v (respond .writeOk s)).of_respond

/-- A step leaves the decoder and the frame, or it services a reset or a `FEED` (R128, R132). -/
theorem step_frame_cases {s t : State} (h : step s = .next t) :
    KeepsFrame s t ∨ (∃ rest, s.inputs = .reset :: rest ∧ t = applyReset (setInputs rest s)) ∨
      ∃ i rest b, s.inputs = i :: rest ∧ IsFeed i ∧ t = feed b (respond .writeOk (setInputs rest s)) := by
  obtain ⟨-, rfl⟩ | ⟨i, rest, hin, heffect⟩ := step_cases h
  · exact .inl (.refl t)
  · obtain hkeeps | ⟨rfl, ht⟩ | ⟨hfeed, b, ht⟩ := heffect.frame_cases
    · exact .inl hkeeps.of_setInputs
    · exact .inr (.inl ⟨rest, hin, ht⟩)
    · exact .inr (.inr ⟨i, rest, b, hin, hfeed, ht⟩)

theorem SameDecoder.trans {s t u : State} (h : SameDecoder s t) (h' : SameDecoder t u) : SameDecoder s u := by
  obtain ⟨hd, hc, hb⟩ := h
  obtain ⟨hd', hc', hb'⟩ := h'
  exact ⟨hd'.trans hd, hc'.trans hc, hb'.trans hb⟩

/-- A step that moves the decoder services a `FEED` or a reset (R128). -/
theorem step_sameDecoder_or {s t : State} (h : step s = .next t) :
    SameDecoder s t ∨ ∃ i rest, s.inputs = i :: rest ∧ (i = .reset ∨ IsFeed i) := by
  obtain hkeeps | ⟨rest, hin, -⟩ | ⟨i, rest, -, hin, hfeed, -⟩ := step_frame_cases h
  · exact .inl hkeeps.decoder
  · exact .inr ⟨.reset, rest, hin, .inl rfl⟩
  · exact .inr ⟨i, rest, hin, .inr hfeed⟩

/-- Any number of steps over inputs that are neither leave the decoder: by induction over the steps. -/
theorem runSteps_sameDecoder {k : Nat} {s t : State} (hin : ∀ i ∈ s.inputs, i ≠ .reset ∧ ¬ IsFeed i)
    (h : runSteps k s = .next t) : SameDecoder s t := by
  induction k generalizing s with
  | zero =>
    injection h with h
    exact h ▸ (KeepsFrame.refl s).decoder
  | succ k ih =>
    obtain ⟨u, hu⟩ := step_completes s
    rw [runSteps_succ hu] at h
    have hlater : SameDecoder u t := ih (fun i hi => hin i (List.mem_of_mem_tail (step_inputs hu ▸ hi))) h
    obtain hsame | ⟨i, rest, hs, hmoves⟩ := step_sameDecoder_or hu
    · exact hsame.trans hlater
    · obtain ⟨hreset, hfeed⟩ := hin i (hs ▸ List.mem_cons_self)
      exact absurd hmoves (not_or.2 ⟨hreset, hfeed⟩)

/-- Settles O15: one step, and the induction over the steps. -/
theorem onlyFeedAndResetMoveTheDecoder : Obligations.OnlyFeedAndResetMoveTheDecoder :=
  ⟨fun _ _ h => step_sameDecoder_or h, fun _ _ _ hin h => runSteps_sameDecoder hin h⟩

/-- Settles O16: of the inputs that may change a latched register, a `FEED` does only where it emits. -/
theorem latchedRegistersChangeOnlyAtEmitOrReset : Obligations.LatchedRegistersChangeOnlyAtEmitOrReset := by
  intro s t h hchanged
  obtain hkeeps | ⟨rest, hin, -⟩ | ⟨i, rest, b, hin, hfeed, ht⟩ := step_frame_cases h
  · exact absurd hkeeps.latched hchanged
  · exact .inl ⟨rest, hin⟩
  · obtain ⟨j, n, -, -, -, -, he⟩ | ⟨hlatched, -, -⟩ := feed_emits_or_keeps_latched b (respond .writeOk (setInputs rest s))
    · rw [he] at ht
      subst ht
      exact .inr ⟨i, rest, _, hin, hfeed, rfl, rfl⟩
    · exact absurd (ht ▸ hlatched) hchanged

/-- Settles O53: `emit` sets `DP` from `HANDLER_EN`, a `FEED` that does not emit clears it, and a write to `HANDLER_EN` stores
there only. -/
theorem irqFollowsDispatch : Obligations.IrqFollowsDispatch := by
  refine ⟨fun b s => ⟨feed b s, rfl, ?_⟩, fun s rest m h => ?handlerWrite⟩
  case handlerWrite =>
    exact ⟨_, step_store_at h rfl rfl rfl nofun, rfl, rfl, rfl, rfl, rfl, rfl, rfl, rfl, rfl⟩
  obtain ⟨i, n, -, -, -, -, h⟩ | ⟨-, hfv, hdp⟩ := feed_emits_or_keeps_latched b s
  · rw [h]
    exact ⟨fun _ => rfl, nofun⟩
  · exact ⟨fun hset => absurd (hfv.symm.trans hset) nofun, fun _ => hdp⟩

end Sys2Proof.Machine
end

section
/-! PROOFS. The invariant (spec 40_decoder.md R132, R136): reset meets it, inputs that leave the frame keep it, and of a
`FEED` the part that concerns the decoder and the part that concerns the frame are kept apart. -/

namespace Sys2Proof.Machine

/-- Every state with the registers reset meets the invariant, whatever the buffers hold (R270). -/
theorem fcgmInv_reset_with (rx tx : Vector Byte 64) (text : Vector Byte 58) (l : List Input) (k : Nat) :
    FcgmInv { State.reset with rxbuf := rx, txbuf := tx, textbuf := text, inputs := l, resets := k } :=
  ⟨rfl, nofun, nofun, .inl ⟨rfl, rfl, rfl, rfl, rfl, rfl, rfl, rfl⟩⟩

/-- Settles O17: the reset state is one with its registers reset. -/
theorem resetStateMeetsTheInvariant : Obligations.ResetStateMeetsTheInvariant :=
  fcgmInv_reset_with State.reset.rxbuf State.reset.txbuf State.reset.textbuf [] 0

theorem fcgmInv_applyReset (s : State) : FcgmInv (applyReset s) := by
  rw [applyReset_eq]
  exact fcgmInv_reset_with _ _ _ _ _

/-! ### What the parts of the invariant depend on -/

theorem DecoderInv.congr {s t : State} (h : DecoderInv s) (hsame : SameDecoder s t) : DecoderInv t := by
  obtain ⟨hd, hc, hb⟩ := hsame
  simpa only [DecoderInv, hd, hc, hb] using h

theorem LatchInv.congr {s t : State} (h : LatchInv s) (hsame : SameLatched s t) (hfv : s.fv = false → t.fv = false) :
    LatchInv t := by
  obtain ⟨hflen, hflenb, hfcmd, hccls, hpv, hvaddr, hvdata⟩ := hsame
  simp only [LatchInv, hflen, hflenb, hfcmd, hccls, hpv, hvaddr, hvdata]
  obtain ⟨h1, h2, h3, h4, h5, h6, h7, hs⟩ | hframe := h
  · exact .inl ⟨h1, h2, h3, h4, h5, h6, h7, hfv hs⟩
  · exact .inr hframe

theorem FrameInv.congr {s t : State} (h : FrameInv s) (hdecoder : SameDecoder s t) (hlatched : SameLatched s t)
    (hfv : t.fv = s.fv) : FrameInv t := by
  obtain ⟨hd, -, hb⟩ := hdecoder
  obtain ⟨hflen, hflenb, hfcmd, -, hpv, hvaddr, hvdata⟩ := hlatched
  simpa only [FrameInv, hd, hb, hflen, hflenb, hfcmd, hpv, hvaddr, hvdata, hfv] using h

/-- What leaves the decoder and the frame keeps the invariant. -/
theorem KeepsFrame.fcgmInv {s t : State} (hkeeps : KeepsFrame s t) (h : FcgmInv s) : FcgmInv t := by
  obtain ⟨hdecoder, hframe, hpending, hlatch⟩ := h
  obtain ⟨hsame, hlatched, hfv, hdp⟩ := hkeeps
  exact ⟨hdecoder.congr hsame, hframe.congr hsame hlatched hfv, fun ht => hfv.trans (hpending (hdp ht)),
    hlatch.congr hlatched hfv.trans⟩

/-! ### `FEED` -/

/-- A `FEED` keeps what the decoder's state says of `RXCNT` and of the bytes collected (R136(a) to (c)). -/
theorem feed_decoderInv (b : Byte) {s : State} (h : DecoderInv s) : DecoderInv (feed b s) := by
  obtain ⟨hd, -, e⟩ | ⟨-, rfl, e⟩ | ⟨-, -, e⟩ | ⟨hd, rfl, e⟩ | ⟨-, -, e⟩ |
    ⟨hd, i, n, hi, hn, u, rfl, ⟨-, e⟩ | ⟨-, -, e⟩ | ⟨hcap, hmore, e⟩⟩ := feed_cases b s <;> rw [e]
  · exact h.congr ⟨rfl, rfl, rfl⟩
  · exact (decoderInv_headerSeen_iff rfl).2 ⟨rfl, Vector.getElem_set_self _⟩
  · exact (decoderInv_idle_iff rfl).2 rfl
  · obtain ⟨-, h0⟩ := (decoderInv_headerSeen_iff hd).1 h
    have h0' := (putRx_rxbuf_of_ne (i := 1) (j := 0) (by omega) nofun 0xA5#8 (endFrame s)).trans h0
    exact (decoderInv_collecting_iff rfl).2
      ⟨Nat.le_refl 2, show 2 ≤ 63 by decide, h0', Vector.getElem_set_self _,
        fun hge => absurd (show 3 ≤ 2 from hge) (by decide)⟩
  · exact (decoderInv_idle_iff rfl).2 rfl
  · exact (decoderInv_idle_iff rfl).2 rfl
  · exact (decoderInv_idle_iff rfl).2 rfl
  · obtain ⟨hlo, h0, h1, -, -⟩ := h.stored hd hi b
    refine (decoderInv_collecting_iff rfl).2 ⟨?_, ?_, h0, h1, fun _ => ⟨?_, hmore⟩⟩
    · rw [setDecoder_rxcnt]; omega
    · rw [setDecoder_rxcnt]; omega
    · rw [expLen] at hcap
      rw [setDecoder_rxbuf]
      omega

/-- `emit` of a whole frame, header first, with the count its length byte says, gives a state that meets the invariant. -/
theorem emit_fcgmInv {n : Count} {u : State} (h0 : u.rxbuf[0] = 0x5A#8) (h1 : u.rxbuf[1] = 0xA5#8)
    (hlen : n.val = expLen u) : FcgmInv (emit n u) := by
  have hge : 3 ≤ n.val := by rw [hlen, expLen]; omega
  refine ⟨(decoderInv_idle_iff rfl).2 rfl, fun _ => ?frame, fun _ => rfl, .inr ?latched⟩
  case frame =>
    refine ⟨rfl, hlen, hge, Nat.le_of_lt_succ n.isLt, h0, h1, rfl, fun hn => ?_, emit_payload_of_pv⟩
    have hne : n.val ≠ 3 := Nat.ne_of_gt hn
    exact (frameCmd_of_ne_three hne u.rxbuf).symm
  case latched =>
    refine ⟨hlen, fun hn => ?noCommand, fun hn => ?command, framePv_iff n u.rxbuf, emit_payload_of_not_pv⟩
    case noCommand => exact ⟨frameClass_of_eq_three hn u.rxbuf, frameCmd_of_eq_three hn u.rxbuf⟩
    case command =>
      have hne : n.val ≠ 3 := Nat.ne_of_gt hn
      rw [emit_ccls, emit_fcmd, frameClass_of_ne_three hne, frameCmd_of_ne_three hne]

/-- A `FEED` keeps the invariant: it emits a whole frame, or it leaves the latched registers and no current frame. -/
theorem feed_fcgmInv (b : Byte) {s : State} (h : FcgmInv s) : FcgmInv (feed b s) := by
  obtain ⟨hdecoder, -, -, hlatch⟩ := h
  obtain ⟨i, n, hd, hi, hn, hdone, e⟩ | ⟨hlatched, hfv, hdp⟩ := feed_emits_or_keeps_latched b s
  · obtain ⟨-, h0, h1, hle, -⟩ := hdecoder.stored hd hi b
    exact e ▸ emit_fcgmInv h0 h1 (by omega)
  · refine ⟨feed_decoderInv b hdecoder, fun hset => ?_, fun hset => ?_, hlatch.congr hlatched fun _ => hfv⟩
    · cases hfv.symm.trans hset
    · cases hdp.symm.trans hset

/-- Settles O18: a step leaves the decoder and the frame, resets, or feeds. -/
theorem stepKeepsTheInvariant : Obligations.StepKeepsTheInvariant := by
  intro s t h hstep
  obtain hkeeps | ⟨rest, -, rfl⟩ | ⟨i, rest, b, -, -, rfl⟩ := step_frame_cases hstep
  · exact hkeeps.fcgmInv h
  · exact fcgmInv_applyReset (setInputs rest s)
  · have htaken : KeepsFrame s (respond .writeOk (setInputs rest s)) := (KeepsFrame.refl _).of_respond.of_setInputs
    exact feed_fcgmInv b (htaken.fcgmInv h)

end Sys2Proof.Machine
end

section
/-! PROOFS. Receiving a whole frame (spec 40_decoder.md R122 to R126, R138): from `Idle`, after each byte but the last the
decoder holds exactly the bytes of the frame fed so far, by induction over them; the last byte emits. -/

namespace Sys2Proof.Machine

/-! ### A wire frame and the bytes of it in the buffer -/

/-- The bytes of a wire frame that the decoder looks at, and the bound on its length (R96). -/
theorem WireFrame.header {f : List Byte} (h : WireFrame f) : f[0]? = some 0x5A#8 ∧ f[1]? = some 0xA5#8 ∧
    ∃ len, f[2]? = some len ∧ len.toNat + 3 = f.length ∧ f.length ≤ 64 := by
  obtain ⟨len, rest, rfl, hlen, hrest⟩ := h
  refine ⟨rfl, rfl, len, rfl, ?_⟩
  simp only [List.length_cons]
  omega

/-- The buffer holds the first `k` bytes of the list. -/
def Buffered (f : List Byte) (k : Nat) (buf : Vector Byte 64) : Prop := ∀ i, i < k → buf[i]? = f[i]?

/-- Storing the next byte of the list behind those buffered. -/
theorem Buffered.set {f : List Byte} {k : Nat} {buf : Vector Byte 64} {b : Byte} (h : Buffered f k buf) (hk : k < 64)
    (hb : f[k]? = some b) : Buffered f (k + 1) (buf.set k b) := by
  intro i hi
  rw [Vector.getElem?_set]
  by_cases hik : k = i
  · rw [if_pos hik, ← hik, hb]
  · rw [if_neg hik]
    exact h i (by omega)

/-- A buffer that holds the whole list starts with it. -/
theorem Buffered.take_eq {f : List Byte} {buf : Vector Byte 64} (h : Buffered f f.length buf) :
    buf.toList.take f.length = f := by
  apply List.ext_getElem?
  intro i
  rw [List.getElem?_take]
  split
  · next hi => rw [Vector.getElem?_toList, h i hi]
  · next hi => exact (List.getElem?_eq_none (Nat.not_lt.1 hi)).symm

/-! ### The decoder part of the way through a frame -/

/-- The decoder's state once `k` bytes of a frame have been received (R122 to R124). -/
def stageAt : Nat → DState
  | 0 => .idle
  | 1 => .headerSeen
  | _ + 2 => .collecting

/-- The decoder has received the first `k` bytes of the frame. `RXCNT` counts them once the header is there; before that no
branch of `FEED` reads it. -/
structure Received (f : List Byte) (k : Nat) (s : State) : Prop where
  stage : s.dstate = stageAt k
  count : 2 ≤ k → s.rxcnt.val = k
  bytes : Buffered f k s.rxbuf

/-- The frame is the one emitted. -/
structure Emitted (f : List Byte) (t : State) : Prop where
  fv : t.fv = true
  dstate : t.dstate = .idle
  frame : rxFrame t = f
  flen : t.flen.val = f.length

/-- With three bytes or more of a wire frame in the buffer the expected length is the frame's (R125). -/
theorem expLen_of_buffered {f : List Byte} {k : Nat} {u : State} (hf : WireFrame f) (hk : 3 ≤ k)
    (h : Buffered f k u.rxbuf) : expLen u = f.length := by
  obtain ⟨-, -, len, hlen, hlength, -⟩ := hf.header
  have hbyte : u.rxbuf[2]? = some len := (h 2 hk).trans hlen
  rw [Vector.getElem?_eq_getElem (by omega), Option.some.injEq] at hbyte
  rw [expLen, hbyte, hlength]

/-- A byte of the frame behind the header: the buffer holds one byte of it more, and the frame's own length decides. -/
theorem Received.feed_stores {f : List Byte} {k : Nat} {s : State} {b : Byte} (h : Received f k s)
    (hf : WireFrame f) (hk : 2 ≤ k) (hb : f[k]? = some b) :
    ∃ (n : Count) (u : State), n.val = k + 1 ∧ feed b s = feedStored n u ∧ expLen u = f.length ∧
      Buffered f (k + 1) u.rxbuf ∧ u.fv = false := by
  obtain ⟨-, -, -, -, -, hle⟩ := hf.header
  have hlt : k < f.length := (List.getElem?_eq_some_iff.1 hb).1
  have hcount := h.count hk
  have hstage : s.dstate = .collecting := by
    obtain ⟨k, rfl⟩ := Nat.exists_eq_add_of_le' hk
    exact h.stage
  have hk64 : k < 64 := by omega
  have hstored : Buffered f (k + 1) (s.rxbuf.set k b) := h.bytes.set hk64 hb
  exact ⟨⟨k + 1, by omega⟩, putRx ⟨k, hk64⟩ b (endFrame s), rfl,
    feed_collecting hstage ⟨k, hk64⟩ ⟨k + 1, by omega⟩ hcount.symm (congrArg (· + 1) hcount.symm),
    expLen_of_buffered hf (by omega) hstored, hstored, rfl⟩

/-- A byte of the frame that is not its last is received, and emits nothing. -/
theorem Received.feed_next {f : List Byte} {k : Nat} {s : State} {b : Byte} (h : Received f k s) (hf : WireFrame f)
    (hb : f[k]? = some b) (hmore : k + 1 < f.length) :
    Received f (k + 1) (feed b s) ∧ (feed b s).fv = false := by
  obtain ⟨h0, h1, -, -, -, hle⟩ := hf.header
  match k, h, hb, hmore with
  | 0, h, hb, _ =>
    obtain rfl : 0x5A#8 = b := Option.some.inj (h0.symm.trans hb)
    rw [feed_idle_header h.stage]
    exact ⟨⟨rfl, by omega, h.bytes.set (by omega) hb⟩, rfl⟩
  | 1, h, hb, _ =>
    obtain rfl : 0xA5#8 = b := Option.some.inj (h1.symm.trans hb)
    rw [feed_headerSeen_header h.stage]
    exact ⟨⟨rfl, fun _ => rfl, h.bytes.set (by omega) hb⟩, rfl⟩
  | k + 2, h, hb, hmore =>
    obtain ⟨n, u, hn, hfeed, hexp, hbytes, hfv⟩ := h.feed_stores hf (by omega) hb
    rw [hfeed, feedStored_collect (by omega) (by omega)]
    exact ⟨⟨rfl, fun _ => hn, hbytes⟩, hfv⟩

/-- The last byte of the frame emits it (R126). -/
theorem Received.feed_last {f : List Byte} {k : Nat} {s : State} {b : Byte} (h : Received f k s) (hf : WireFrame f)
    (hb : f[k]? = some b) (hlast : k + 1 = f.length) : Emitted f (feed b s) := by
  obtain ⟨-, -, len, -, hlength, hle⟩ := hf.header
  obtain ⟨n, u, hn, hfeed, hexp, hbytes, -⟩ := h.feed_stores hf (by omega) hb
  rw [hfeed, feedStored_emit (by omega) (by omega)]
  have hflen : n.val = f.length := hn.trans hlast
  refine ⟨rfl, rfl, ?_, hflen⟩
  rw [rxFrame, emit_flen, emit_rxbuf, hflen]
  exact (hlast ▸ hbytes).take_eq

/-! ### Over the steps -/

/-- Running `k` steps and then `m`. -/
theorem runSteps_add {k m : Nat} {s t : State} (h : runSteps k s = .next t) : runSteps (k + m) s = runSteps m t := by
  induction k generalizing s with
  | zero =>
    injection h with h
    rw [h, Nat.zero_add]
  | succ k ih =>
    obtain ⟨u, hu⟩ := step_completes s
    rw [runSteps_succ hu] at h
    rw [Nat.add_right_comm, runSteps_succ hu, ih h]

/-- One step more. -/
theorem runSteps_succ_last {k : Nat} {s t u : State} (h : runSteps k s = .next t) (hstep : step t = .next u) :
    runSteps (k + 1) s = .next u := by
  rw [runSteps_add h, runSteps_succ hstep, runSteps_zero]

/-- A step that services a `FEED` of a stream: the byte is fed in a state with the others waiting and the decoder, the frame
and `DROP` as they were. -/
theorem step_feeds_taken {s : State} {b : Byte} {bs : List Byte} {rest : List Input}
    (h : s.inputs = feeds (b :: bs) ++ rest) :
    ∃ u, KeepsFrame s u ∧ u.drop = s.drop ∧ step s = .next (feed b u) ∧ (feed b u).inputs = feeds bs ++ rest := by
  let u : State := respond .writeOk (setInputs (feeds bs ++ rest) s)
  have htaken : KeepsFrame s u := (KeepsFrame.refl u).of_respond.of_setInputs
  have hleft : s.inputs.tail = feeds bs ++ rest := congrArg List.tail h
  exact ⟨u, htaken, rfl, step_feeds h, (step_inputs (step_feeds h)).trans hleft⟩

theorem Received.of_keepsFrame {f : List Byte} {k : Nat} {s t : State} (h : Received f k s) (hkeeps : KeepsFrame s t) :
    Received f k t := by
  obtain ⟨hd, hc, hb⟩ := hkeeps.decoder
  exact ⟨hd.trans h.stage, fun hk => (congrArg Fin.val hc).trans (h.count hk), hb ▸ h.bytes⟩

/-- After `k` of the frame's bytes, its last one not among them, the decoder has received those and has emitted nothing: by
induction over them. -/
theorem runSteps_receives {f : List Byte} {rest : List Input} {s : State} (hf : WireFrame f) (hidle : s.dstate = .idle)
    (hin : s.inputs = feeds f ++ rest) {k : Nat} (hk : k < f.length) :
    ∃ t, runSteps k s = .next t ∧ Received f k t ∧ t.inputs = feeds (f.drop k) ++ rest ∧ (1 ≤ k → t.fv = false) := by
  induction k with
  | zero => exact ⟨s, rfl, ⟨hidle, nofun, nofun⟩, hin, nofun⟩
  | succ k ih =>
    have hk' : k < f.length := by omega
    obtain ⟨t, hrun, hreceived, hwaiting, -⟩ := ih hk'
    rw [List.drop_eq_getElem_cons hk'] at hwaiting
    obtain ⟨u, htaken, -, hstep, hleft⟩ := step_feeds_taken hwaiting
    obtain ⟨hnext, hfv⟩ := (hreceived.of_keepsFrame htaken).feed_next hf (List.getElem?_eq_getElem hk') hk
    exact ⟨_, runSteps_succ_last hrun hstep, hnext, hleft, fun _ => hfv⟩

/-- As many steps as the frame has bytes emit it. -/
theorem runSteps_emits {f : List Byte} {rest : List Input} {s : State} (hf : WireFrame f) (hidle : s.dstate = .idle)
    (hin : s.inputs = feeds f ++ rest) : ∃ t, runSteps f.length s = .next t ∧ Emitted f t ∧ t.inputs = rest := by
  obtain ⟨-, -, len, -, hlength, -⟩ := hf.header
  obtain ⟨k, hlast⟩ : ∃ k, k + 1 = f.length := ⟨len.toNat + 2, hlength⟩
  have hk : k < f.length := by omega
  obtain ⟨t, hrun, hreceived, hwaiting, -⟩ := runSteps_receives hf hidle hin hk
  rw [List.drop_eq_getElem_cons hk, hlast, List.drop_length] at hwaiting
  obtain ⟨u, htaken, -, hstep, hleft⟩ := step_feeds_taken hwaiting
  have hemitted := (hreceived.of_keepsFrame htaken).feed_last hf (List.getElem?_eq_getElem hk) hlast
  exact ⟨_, hlast ▸ runSteps_succ_last hrun hstep, hemitted, hleft⟩

/-- Part of the way through a frame the decoder is not idle. -/
theorem Received.dstate_ne_idle {f : List Byte} {k : Nat} {s : State} (h : Received f k s) (hk : 1 ≤ k) :
    s.dstate ≠ .idle := by
  rw [h.stage]
  match k, hk with
  | 1, _ => exact nofun
  | _ + 2, _ => exact nofun

/-- Settles O19: the last byte emits the frame, and before it the decoder is part of the way through. -/
theorem idleDecoderEmitsExactlyTheFrameFed : Obligations.IdleDecoderEmitsExactlyTheFrameFed := by
  intro f rest s hf hidle hin
  refine ⟨?emitted, fun k u hk hlt hrun => ?before⟩
  case emitted =>
    obtain ⟨t, hrun, ⟨hfv, hd, hframe, hflen⟩, hwaiting⟩ := runSteps_emits hf hidle hin
    exact ⟨t, hrun, hfv, hd, hframe, hflen, hwaiting⟩
  case before =>
    obtain ⟨t, hrun', hreceived, -, hfv⟩ := runSteps_receives hf hidle hin hlt
    obtain rfl : t = u := by injection hrun'.symm.trans hrun
    exact ⟨hfv hk, hreceived.dstate_ne_idle hk⟩

/-! ### A doubled first header byte -/

/-- From `Idle`, two first header bytes lead back to `Idle`: the second is consumed as a wrong second header byte (R123). -/
theorem runSteps_doubled_header {bs : List Byte} {rest : List Input} {s : State} (hidle : s.dstate = .idle)
    (hin : s.inputs = feeds (0x5A#8 :: 0x5A#8 :: bs) ++ rest) :
    ∃ t, runSteps 2 s = .next t ∧ t.dstate = .idle ∧ t.drop = s.drop ∧ t.inputs = feeds bs ++ rest := by
  obtain ⟨u, htaken, hdrop, hstep, hleft⟩ := step_feeds_taken hin
  rw [feed_idle_header (htaken.decoder.1.trans hidle)] at hstep hleft
  obtain ⟨v, htaken', hdrop', hstep', hleft'⟩ := step_feeds_taken hleft
  rw [feed_headerSeen_resync htaken'.decoder.1 (by decide)] at hstep' hleft'
  exact ⟨_, runSteps_succ_last (runSteps_succ hstep) hstep', rfl, hdrop'.trans hdrop, hleft'⟩

/-- Settles O20: from the `Idle` behind the doubled byte, a second header byte is noise and a whole frame is received. -/
theorem doubledHeaderByteIsConsumed : Obligations.DoubledHeaderByteIsConsumed := by
  intro s rest hidle
  refine ⟨fun hin => ?noise, fun f hf hin => ?frame⟩
  case noise =>
    obtain ⟨t, hrun, hd, hdrop, hwaiting⟩ := runSteps_doubled_header hidle hin
    obtain ⟨u, htaken, hdrop', hstep, hleft⟩ := step_feeds_taken hwaiting
    have hd' := htaken.decoder.1.trans hd
    rw [feed_idle_noise hd' (by decide)] at hstep hleft
    exact ⟨_, runSteps_succ_last hrun hstep, hd', rfl, hdrop'.trans hdrop, hleft⟩
  case frame =>
    obtain ⟨t, hrun, hd, -, hwaiting⟩ := runSteps_doubled_header hidle hin
    obtain ⟨u, hrun', ⟨hfv, hd', hframe, hflen⟩, hwaiting'⟩ := runSteps_emits hf hd hwaiting
    exact ⟨u, by rw [Nat.add_comm, runSteps_add hrun, hrun'], hfv, hd', hframe, hflen, hwaiting'⟩

end Sys2Proof.Machine
end

section
/-! PROOFS. The frame encoder (spec 41_encoder.md R160 to R170): which frame each operation builds, written out once as a
relation, one constructor per operation; what the state is after it is what `build` leaves. -/

namespace Sys2Proof.Machine

/-! ### The frames of the encoder as a relation -/

/-- In the state `s`, the encoder operation builds the frame with this command byte and payload (R162 to R167). A text that
does not fit builds none (R166). -/
inductive Builds (s : State) : Instr → Byte → List Byte → Prop where
  | encWreg (reg : Byte) (data : Half) : Builds s (.encWreg reg data) 0x80#8 (reg :: bytesOfHalf data)
  | encWvar (value : Half) : Builds s (.encWvar value) 0x82#8 (bytesOfHalf s.vaddr ++ bytesOfHalf value)
  | encWvol (vol : Half) :
      Builds s (.encWvol vol) 0x82#8 (bytesOfHalf s.vaddr ++ [BitVec.ofNat 8 (lvl vol).val, 0x00#8])
  | encWtext (n : Byte) (fits : n.toNat ≤ 58) : Builds s (.encWtext n) 0x82#8 (textPayload n.toNat s)
  | encRvar (count : Byte) : Builds s (.encRvar count) 0x83#8 (bytesOfHalf s.vaddr ++ [count])

/-- Every operation of the encoder builds a frame, a text that fits provided. -/
theorem exists_builds {i : Instr} (henc : (∃ r d, i = .encWreg r d) ∨ (∃ v, i = .encWvar v) ∨ (∃ v, i = .encWvol v) ∨
    (∃ n, i = .encWtext n ∧ n.toNat ≤ 58) ∨ (∃ c, i = .encRvar c)) (s : State) : ∃ cmd p, Builds s i cmd p := by
  rcases henc with ⟨reg, data, rfl⟩ | ⟨value, rfl⟩ | ⟨vol, rfl⟩ | ⟨n, rfl, fits⟩ | ⟨count, rfl⟩
  · exact ⟨_, _, .encWreg reg data⟩
  · exact ⟨_, _, .encWvar value⟩
  · exact ⟨_, _, .encWvol vol⟩
  · exact ⟨_, _, .encWtext n fits⟩
  · exact ⟨_, _, .encRvar count⟩

/-- The payloads of the encoder have 2 to 60 bytes: `LEN` ranges over 3 to 61 (R160). -/
theorem Builds.length_payload {s : State} {i : Instr} {cmd : Byte} {p : List Byte} (h : Builds s i cmd p) :
    2 ≤ p.length ∧ p.length ≤ 60 := by
  cases h with
  | encWtext n fits =>
    rw [length_textPayload fits]
    omega
  | _ => simp [bytesOfHalf]

/-- The command bytes of the encoder (R170). -/
theorem Builds.command {s : State} {i : Instr} {cmd : Byte} {p : List Byte} (h : Builds s i cmd p) :
    cmd = 0x80#8 ∨ cmd = 0x82#8 ∨ cmd = 0x83#8 := by
  cases h <;> decide

/-- The operation completes with the frame built (R160). -/
theorem Builds.exec_eq {s : State} {i : Instr} {cmd : Byte} {p : List Byte} (h : Builds s i cmd p) :
    exec i s = .next (build cmd p h.length_payload.2 s) := by
  cases h with
  | encWreg reg data => exact exec_encWreg reg data s
  | encWvar value => exact exec_encWvar value s
  | encWvol vol => exact exec_encWvol vol s
  | encWtext n fits => exact exec_encWtext_fits fits s
  | encRvar count => exact exec_encRvar count s

/-- The frame depends on nothing of the state but `VADDR` and `TEXTBUF`, and on those only where the operation reads them
(R161). -/
theorem Builds.congr {s u : State} {i : Instr} {cmd : Byte} {p : List Byte} (h : Builds s i cmd p)
    (hvaddr : (∃ r d, i = .encWreg r d) ∨ s.vaddr = u.vaddr) (htext : (∃ n, i = .encWtext n) → s.textbuf = u.textbuf) :
    Builds u i cmd p := by
  cases h with
  | encWreg reg data => exact .encWreg reg data
  | encWvar value =>
    rw [hvaddr.resolve_left (by simp)]
    exact .encWvar value
  | encWvol vol =>
    rw [hvaddr.resolve_left (by simp)]
    exact .encWvol vol
  | encWtext n fits =>
    rw [textPayload, hvaddr.resolve_left (by simp), htext ⟨n, rfl⟩]
    exact .encWtext n fits
  | encRvar count =>
    rw [hvaddr.resolve_left (by simp)]
    exact .encRvar count

/-- What an encoder operation leaves: the frame in `TXBUF[0..TXLEN-1]`, its length, and everything else as it was. -/
theorem Builds.completes {s : State} {i : Instr} {cmd : Byte} {p : List Byte} (h : Builds s i cmd p) :
    ∃ t, exec i s = .next t ∧ txFrame t = frameOf cmd p ∧ t.txlen.val = p.length + 4 ∧
      (∀ j : Fin 64, p.length + 4 ≤ j.val → t.txbuf[j.val] = s.txbuf[j.val]) ∧
      t = { s with txbuf := t.txbuf, txlen := t.txlen } :=
  have fits := h.length_payload.2
  ⟨_, h.exec_eq, txFrame_build cmd p fits s, build_txlen cmd p fits s,
    fun j => build_txbuf_tail cmd p fits s j.val j.isLt, build_frame cmd p fits s⟩

/-! ### The obligations on the operations -/

/-- Settles O21: the frame with command byte `0x80` and the payload of `ENC.WREG`. -/
theorem encWregBuildsTheRegisterFrame : Obligations.EncWregBuildsTheRegisterFrame :=
  fun reg data _ => ⟨(Denotes.encWreg reg data).decode_eq, (Builds.encWreg reg data).completes⟩

/-- Settles O22: the frame with command byte `0x82` and the payload of `ENC.WVAR`. -/
theorem encWvarBuildsTheVariableFrame : Obligations.EncWvarBuildsTheVariableFrame :=
  fun b value _ => ⟨(Denotes.encWvar b value).decode_eq, (Builds.encWvar value).completes⟩

/-- The level of a volume is a byte (R164). -/
theorem levelByte_toNat (h : Half) : ((BitVec.ofNat 8 (lvl h).val).toNat : Int) = max 0 (min 100 h.toInt) := by
  rw [← lvl_val, BitVec.toNat_ofNat, Nat.mod_eq_of_lt (Nat.lt_trans (lvl h).isLt (by decide))]

/-- Settles O23: the frame of `ENC.WVOL`, whose high data byte is the level. -/
theorem encWvolClampsAndPacksTheVolume : Obligations.EncWvolClampsAndPacksTheVolume := by
  intro b vol s
  obtain ⟨t, hexec, hbuilt⟩ := (Builds.encWvol (s := s) vol).completes
  exact ⟨(Denotes.encWvol b vol).decode_eq, t, _, hexec, levelByte_toNat vol, hbuilt⟩

/-- Settles O24: a text that fits builds the frame of its payload of `n + 2` bytes; a longer one raises `EncodeLength`. -/
theorem encWtextBuildsTheTextFrameOrRaises : Obligations.EncWtextBuildsTheTextFrameOrRaises := by
  intro n h s
  refine ⟨(Denotes.encWtext n h).decode_eq, fun fits => ?built, fun hlong => exec_encWtext_long hlong s⟩
  case built =>
    have hbuilt := (Builds.encWtext (s := s) n fits).completes
    rw [frameOf, length_textPayload fits] at hbuilt
    exact hbuilt

/-- Settles O25: the frame with command byte `0x83` and the payload of `ENC.RVAR`. -/
theorem encRvarBuildsTheReadRequest : Obligations.EncRvarBuildsTheReadRequest :=
  fun count h _ => ⟨(Denotes.encRvar count h).decode_eq, (Builds.encRvar count).completes⟩

/-- Settles O26: a text that does not fit leaves the same in all states; otherwise both states build the same frame. -/
theorem encoderIsPure : Obligations.EncoderIsPure := by
  intro i henc s u hvaddr htext
  by_cases hlong : ∃ n, i = .encWtext n ∧ 58 < n.toNat
  case pos =>
    obtain ⟨n, rfl, hn⟩ := hlong
    exact ⟨_, _, exec_encWtext_long hn s, exec_encWtext_long hn u, rfl, rfl, .inr ⟨⟨n, rfl, hn⟩, rfl⟩⟩
  case neg =>
    have hfits : (∃ n, i = .encWtext n) → ∃ n, i = .encWtext n ∧ n.toNat ≤ 58 :=
      fun ⟨n, hi⟩ => ⟨n, hi, Nat.not_lt.1 fun hn => hlong ⟨n, hi, hn⟩⟩
    obtain ⟨cmd, p, hs⟩ := exists_builds (henc.imp_right (.imp_right (.imp_right (.imp_left hfits)))) s
    have hu := hs.congr hvaddr htext
    refine ⟨_, _, hs.exec_eq, hu.exec_eq, ?_, rfl, .inl (build_frame ..)⟩
    rw [txFrame_build, txFrame_build]

/-- Settles O27: the first four bytes of a built frame, its length byte being one more than the 2 to 60 of the payload. -/
theorem builtFramesAreWellFormed : Obligations.BuiltFramesAreWellFormed := by
  intro i s t henc hexec
  obtain ⟨cmd, p, hb⟩ := exists_builds henc s
  obtain ⟨hlo, fits⟩ := hb.length_payload
  obtain rfl : build cmd p fits s = t := Host.Outcome.next.inj (hb.exec_eq.symm.trans hexec)
  have head (k : Nat) (hk : k < 4) := build_txbuf_head cmd p fits s k (by omega) (by omega)
  have hlen : (build cmd p fits s).txbuf[2].toNat = p.length + 1 := by
    rw [head 2 (by decide)]
    exact Nat.mod_eq_of_lt (by omega)
  rw [hlen, build_txlen]
  refine ⟨?_, head 0 (by decide), head 1 (by decide), rfl, by omega, by omega, ?_⟩
  · rw [txFrame_build]
    exact wireFrame_frameOf cmd fits
  · rw [head 3 (by decide)]
    exact hb.command

end Sys2Proof.Machine
end

section
/-! PROOFS. A built frame received (spec 41_encoder.md R171; 40_decoder.md R130, R138): the decoder emits it, and what `emit`
latches is read off the frame's own bytes. -/

namespace Sys2Proof.Machine

/-! ### What the emission of a frame latches -/

/-- As many steps as a wire frame has bytes end in `emit`, with the frame in `RXBUF`. -/
theorem runSteps_emit_eq {f : List Byte} {rest : List Input} {s : State} (hf : WireFrame f) (hidle : s.dstate = .idle)
    (hin : s.inputs = feeds f ++ rest) :
    ∃ (n : Count) (u : State), runSteps f.length s = .next (emit n u) ∧ n.val = f.length ∧
      Buffered f f.length u.rxbuf ∧ u.inputs = rest := by
  obtain ⟨-, -, len, -, hlength, hle⟩ := hf.header
  obtain ⟨k, hlast⟩ : ∃ k, k + 1 = f.length := ⟨len.toNat + 2, hlength⟩
  have hk : k < f.length := by omega
  obtain ⟨t, hrun, hreceived, hwaiting, -⟩ := runSteps_receives hf hidle hin hk
  rw [List.drop_eq_getElem_cons hk, hlast, List.drop_length] at hwaiting
  obtain ⟨v, htaken, -, hstep, hleft⟩ := step_feeds_taken hwaiting
  obtain ⟨n, u, hn, hfeed, hexp, hbytes, -⟩ :=
    (hreceived.of_keepsFrame htaken).feed_stores hf (by omega) (List.getElem?_eq_getElem hk)
  rw [hfeed, feedStored_emit (by omega) (by omega)] at hstep hleft
  exact ⟨n, u, hlast ▸ runSteps_succ_last hrun hstep, hn.trans hlast, hlast ▸ hbytes, hleft⟩

/-- A byte of the buffer is the frame's. -/
theorem Buffered.getElem_eq {f : List Byte} {k : Nat} {buf : Vector Byte 64} (h : Buffered f k buf) {j : Nat} {b : Byte}
    (hk : j < k) (hj : j < 64) (hb : f[j]? = some b) : buf[j] = b := by
  rw [← Option.some.injEq, ← Vector.getElem?_eq_getElem hj, h j hk, hb]

/-- The class of a built frame is its command byte's (R131). -/
theorem frameClass_of_buffered {cmd : Byte} {p : List Byte} {n : Count} {buf : Vector Byte 64} (hn : n.val = p.length + 4)
    (h : Buffered (frameOf cmd p) n.val buf) : frameClass n buf = classOf cmd := by
  rw [frameClass_of_ne_three (by omega), h.getElem_eq (by omega) (by decide) rfl]

/-- A write-variable frame of an address and one 16-bit value gives both back (R133, R142). -/
theorem emit_writeVariable {addr : Half} {hi lo : Byte} {n : Count} {u : State} (hn : n.val = 8)
    (h : Buffered (frameOf 0x82#8 (bytesOfHalf addr ++ [hi, lo])) n.val u.rxbuf) :
    (emit n u).pv = true ∧ (emit n u).rxVaddr = addr ∧ (emit n u).rxVdata = halfOf hi lo := by
  have hclass : frameClass n u.rxbuf = .writeVariable := frameClass_of_buffered hn h
  have byte {j : Nat} {b : Byte} (hj : j < 8) := h.getElem_eq (j := j) (b := b) (by omega) (by omega)
  obtain ⟨hpv, hvaddr, hvdata⟩ := (emit_of_variable (.inl hclass)).1 hn.ge
  rw [byte (b := hiByte addr) (by decide) rfl, byte (b := loByte addr) (by decide) rfl] at hvaddr
  rw [byte (b := hi) (by decide) rfl, byte (b := lo) (by decide) rfl] at hvdata
  exact ⟨hpv, hvaddr.trans (halfOf_hiByte_loByte addr), hvdata⟩

/-! ### The obligation -/

/-- Settles O28: a built frame is a wire frame, so the decoder emits it; the class is that of the operation's command byte,
and the two operations with a 16-bit value send it in the payload bytes that `emit` latches. -/
theorem encodedFramesDecode : Obligations.EncodedFramesDecode := by
  intro i s t u rest henc hexec hidle hin
  obtain ⟨cmd, p, hb⟩ := exists_builds henc s
  have fits := hb.length_payload.2
  obtain rfl : build cmd p fits s = t := Host.Outcome.next.inj (hb.exec_eq.symm.trans hexec)
  rw [txFrame_build] at hin
  obtain ⟨n, w, hrun, hn, hbytes, hwaiting⟩ := runSteps_emit_eq (wireFrame_frameOf cmd fits) hidle hin
  have hframe : rxFrame (emit n w) = frameOf cmd p := by
    rw [rxFrame, emit_flen, emit_rxbuf, hn, hbytes.take_eq]
  rw [← hn] at hbytes
  rw [length_frameOf] at hrun hn
  rw [txFrame_build, build_txlen]
  have hclass : (emit n w).ccls = classOf cmd := frameClass_of_buffered hn hbytes
  refine ⟨emit n w, hrun, rfl, hframe, hwaiting, ?writeRegister, ?writeVariable, ?readVariable, ?value, ?volume⟩
  case writeRegister =>
    rintro ⟨_, _, rfl⟩
    cases hb
    exact hclass
  case writeVariable =>
    rintro (⟨_, rfl⟩ | ⟨_, rfl⟩ | ⟨_, rfl⟩) <;> cases hb <;> exact hclass
  case readVariable =>
    rintro ⟨_, rfl⟩
    cases hb
    exact hclass
  case value =>
    rintro x rfl
    cases hb
    obtain ⟨hpv, hvaddr, hvdata⟩ := emit_writeVariable hn hbytes
    exact ⟨hpv, hvaddr, hvdata.trans (halfOf_hiByte_loByte x)⟩
  case volume =>
    rintro x rfl
    cases hb
    obtain ⟨hpv, hvaddr, hvdata⟩ := emit_writeVariable hn hbytes
    refine ⟨hpv, hvaddr, ?_⟩
    rw [hvdata, halfOf_toNat, ← levelByte_toNat]
    simp only [BitVec.toNat_ofNat]
    omega

end Sys2Proof.Machine
end

section
/-! PROOFS. The mapper's operations (spec 42_mapper.md R200 to R211): what each one writes to `RESULT`, written out once as a
relation, one constructor per operation; the clamped level and the level a gain code reaches are computed from the operand's
number. -/

namespace Sys2Proof.Machine

/-! ### The results of the mapper as a relation -/

/-- The mapper operation writes this value to `RESULT` (R200 to R210). The state is no part of the relation (R211). -/
inductive Maps : Instr → Half → Prop where
  | mapL2g (h : Half) : Maps (.mapL2g h) (fwd (lvl h))
  | mapG2l (h : Half) : Maps (.mapG2l h) (levelHalf (inv h))
  | mapP2l (h : Half) : Maps (.mapP2l h) (levelHalf (pdec h))
  | mapL2p (h : Half) : Maps (.mapL2p h) (penc (lvl h))
  | mapR2l (h : Half) : Maps (.mapR2l h) (levelHalf (rdec h))
  | mapL2r (h : Half) : Maps (.mapL2r h) (renc (lvl h))
  | mapP2g (h : Half) : Maps (.mapP2g h) (fwd (pdec h))
  | mapG2p (h : Half) : Maps (.mapG2p h) (penc (inv h))
  | mapR2g (h : Half) : Maps (.mapR2g h) (fwd (rdec h))
  | mapG2r (h : Half) : Maps (.mapG2r h) (renc (inv h))
  | mapLin (h : Half) : Maps (.mapLin h) (levelHalf (lvl h))

/-- The operation completes from every state, with its value in `RESULT` and nothing else changed (R211). -/
theorem Maps.exec_eq {i : Instr} {v : Half} (h : Maps i v) (s : State) : exec i s = .next { s with result := v } := by
  cases h <;> rfl

/-- An operation that takes the `RESULT` of the one before it leaves its own value there. -/
theorem Maps.exec_result {i : Instr} {op : Half → Instr} {v w : Half} (hi : Maps i v) (hop : Maps (op v) w) {s t : State}
    (ht : exec i s = .next t) : exec (op t.result) t = .next { s with result := w } := by
  obtain rfl : { s with result := v } = t := Host.Outcome.next.inj ((hi.exec_eq s).symm.trans ht)
  exact hop.exec_eq _

/-! ### The levels, from the operand's number -/

theorem lvl_eq {h : Half} {l : Level} (hl : (l.val : Int) = max 0 (min 100 h.toInt)) : lvl h = l :=
  Fin.ext (Int.ofNat.inj ((lvl_val h).trans hl.symm))

theorem pdec_eq {v : Half} {l : Level} (hl : l.val = min (v.toNat / 256) 100) : pdec v = l :=
  Fin.ext ((pdec_val v).trans hl.symm)

theorem rdec_eq {v : Half} {l : Level} (hl : l.val = min (v.toNat - 0x100) 100) : rdec v = l :=
  Fin.ext ((rdec_val v).trans hl.symm)

/-- `le_inv_iff` on numbers. -/
theorem le_inv_iff_toNat (k : Fin 100) (g : Half) : k.val + 1 ≤ (inv g).val ↔ romTh[k.val].toNat ≤ g.toNat :=
  le_inv_iff k g

/-- The clamp at the bottom: gains below level 1/2 (R195). -/
theorem inv_val_of_le {g : Half} (h : g.toNat ≤ 33) : (inv g).val = 0 := by
  have hfirst : 0 + 1 ≤ (inv g).val ↔ 34 ≤ g.toNat := le_inv_iff_toNat 0 g
  omega

/-- The clamp at the top (R195). -/
theorem inv_val_of_ge {g : Half} (h : 32412 ≤ g.toNat) : (inv g).val = 100 := by
  have hlast : 99 + 1 ≤ (inv g).val ↔ 32412 ≤ g.toNat := le_inv_iff_toNat 99 g
  have hmax : (inv g).val < 101 := (inv g).isLt
  omega

/-- The gain code of R201 that lies between the thresholds of 50 and 51. -/
theorem inv_val_of_eq {g : Half} (h : g.toNat = 1048) : (inv g).val = 50 := by
  have hreached : 49 + 1 ≤ (inv g).val ↔ 1013 ≤ g.toNat := le_inv_iff_toNat 49 g
  have hnext : 50 + 1 ≤ (inv g).val ↔ 1086 ≤ g.toNat := le_inv_iff_toNat 50 g
  omega

/-! ### The obligations on the operations -/

/-- Settles O29: the forward table at the level clamped from the operand; both corners are levels at an end of the table. -/
theorem mapL2gReadsTheForwardTable : Obligations.MapL2gReadsTheForwardTable := by
  intro b h s
  have hentry (l : Fin 101) (hl : (l.val : Int) = max 0 (min 100 h.toInt)) :
      exec (.mapL2g h) s = .next { s with result := romFwd[l.val] } := by
    rw [(Maps.mapL2g h).exec_eq, lvl_eq hl]
    rfl
  refine ⟨(Denotes.mapL2g b h).decode_eq, hentry, fun hfloor => hentry 0 ?_, fun htop => hentry 100 ?_⟩
  · rcases hfloor with rfl | hneg
    · decide
    · show (0 : Int) = _
      omega
  · show (100 : Int) = _
    omega

/-- Settles O30: the level is `inv`, which counts the thresholds reached. -/
theorem mapG2lCountsThresholds : Obligations.MapG2lCountsThresholds :=
  fun b h s => ⟨(Denotes.mapG2l b h).decode_eq, (inv h).val, Nat.le_of_lt_succ (inv h).isLt, (Maps.mapG2l h).exec_eq s,
    fun k => (le_inv_iff k h).symm, inv_val_of_le, inv_val_of_ge, fun htop => inv_val_of_ge (by omega), inv_val_of_eq⟩

/-- Settles O31: the two decoded levels, as numbers. -/
theorem mapToLevelClampsThePackedAndRawValue : Obligations.MapToLevelClampsThePackedAndRawValue := by
  intro b h s
  refine ⟨(Denotes.mapP2l b h).decode_eq, (Denotes.mapR2l b h).decode_eq, ?packed, ?raw⟩
  case packed => rw [(Maps.mapP2l h).exec_eq, levelHalf_eq, pdec_val]
  case raw => rw [(Maps.mapR2l h).exec_eq, levelHalf_eq, rdec_val]

/-- Settles O32: the three encodings of the level clamped from the operand. -/
theorem mapFromLevelPacksTheClampedLevel : Obligations.MapFromLevelPacksTheClampedLevel := by
  intro b h s l hl
  obtain rfl : (lvl h).val = l := Int.ofNat.inj ((lvl_val h).trans hl.symm)
  refine ⟨(Denotes.mapL2p b h).decode_eq, (Denotes.mapL2r b h).decode_eq, (Denotes.mapLin b h).decode_eq, ?packed,
    (Maps.mapL2r h).exec_eq s, (Maps.mapLin h).exec_eq s⟩
  case packed => rw [(Maps.mapL2p h).exec_eq, penc_eq]

/-- Settles O33: the forward table at the level decoded; each corner is a level at an end of the table. -/
theorem mapToGainReadsTheForwardTable : Obligations.MapToGainReadsTheForwardTable := by
  intro b h s
  have hpacked (l : Fin 101) (hl : l.val = min (h.toNat / 256) 100) :
      exec (.mapP2g h) s = .next { s with result := romFwd[l.val] } := by
    rw [(Maps.mapP2g h).exec_eq, pdec_eq hl]
    rfl
  have hraw (l : Fin 101) (hl : l.val = min (h.toNat - 0x100) 100) :
      exec (.mapR2g h) s = .next { s with result := romFwd[l.val] } := by
    rw [(Maps.mapR2g h).exec_eq, rdec_eq hl]
    rfl
  have hzero : (0 : Fin 101).val = 0 := rfl
  have hhundred : (100 : Fin 101).val = 100 := rfl
  exact ⟨(Denotes.mapP2g b h).decode_eq, (Denotes.mapR2g b h).decode_eq, hpacked, hraw,
    fun hfloor => hpacked 0 (by omega), fun htop => hpacked 100 (by omega),
    fun hfloor => hraw 0 (by omega), fun htop => hraw 100 (by omega)⟩

/-- Settles O34: the level is `inv`, packed or raw-linear. -/
theorem mapFromGainPacksTheLevelReached : Obligations.MapFromGainPacksTheLevelReached := by
  intro b h s
  refine ⟨(Denotes.mapG2p b h).decode_eq, (Denotes.mapG2r b h).decode_eq, (inv h).val, Nat.le_of_lt_succ (inv h).isLt,
    fun k => (le_inv_iff k h).symm, ?packed, (Maps.mapG2r h).exec_eq s, ?floor, fun htop => inv_val_of_ge (by omega)⟩
  case packed => rw [(Maps.mapG2p h).exec_eq, penc_eq]
  case floor =>
    rintro rfl
    exact inv_val_of_le (by decide)

/-- Every operation of the mapper has its value. -/
theorem exists_maps {h : Half} {i : Instr} (hi : i ∈ [Instr.mapL2g h, .mapG2l h, .mapP2l h, .mapL2p h, .mapR2l h, .mapL2r h,
    .mapP2g h, .mapG2p h, .mapR2g h, .mapG2r h, .mapLin h]) : ∃ v, Maps i v := by
  simp only [List.mem_cons, List.not_mem_nil, or_false] at hi
  rcases hi with rfl | rfl | rfl | rfl | rfl | rfl | rfl | rfl | rfl | rfl | rfl <;> exact ⟨_, by constructor⟩

/-- Settles O35: the value is fixed by the operation, before any state is chosen. -/
theorem mapperIsPure : Obligations.MapperIsPure := by
  intro h i hi
  obtain ⟨v, hv⟩ := exists_maps hi
  exact ⟨v, hv.exec_eq⟩

end Sys2Proof.Machine
end

section
/-! PROOFS. The mapper's tables (spec 42_mapper.md R192 to R196, R214). Every comparison of a gain code with the law
`32768 * 2^(x/10) / 1000` at a half level `x = j/2` is a comparison of integers once both sides are raised to the power 20;
so the tables are tied to the law by one integer check of each entry, and the logarithmic law to the table of thresholds. -/

namespace Sys2Proof.Machine

/-! ### The law over the real numbers -/

/-- The exponential law (R190, R192) before rounding and clamping, as a gain code: `gain = 2^(x/10) / 1000`, times 32768. -/
noncomputable def gainLaw (x : ℝ) : ℝ := 32768 * (2 : ℝ) ^ (x / 10) / 1000

theorem gainLaw_nonneg (x : ℝ) : 0 ≤ gainLaw x := by
  unfold gainLaw
  positivity

/-- The scaled power that makes integers of half codes and of the law at half levels keeps the order. -/
theorem scaledPow_le_iff {x y : ℝ} (hx : 0 ≤ x) (hy : 0 ≤ y) : (2000 * x) ^ 20 ≤ (2000 * y) ^ 20 ↔ x ≤ y := by
  rw [pow_le_pow_iff_left₀ (by positivity) (by positivity) (by decide), mul_le_mul_iff_right₀ (by norm_num)]

theorem scaledPow_halfCode (a : ℕ) : (2000 * ((a : ℝ) / 2)) ^ 20 = ((1000 * a) ^ 20 : ℕ) := by
  push_cast
  ring

theorem scaledPow_gainLaw (j : ℕ) : (2000 * gainLaw (j / 2)) ^ 20 = (65536 ^ 20 * 2 ^ j : ℕ) := by
  have hpow : ((2 : ℝ) ^ ((j : ℝ) / 2 / 10)) ^ 20 = 2 ^ j := by
    rw [← Real.rpow_natCast, ← Real.rpow_mul (by norm_num), ← Real.rpow_natCast]
    congr 1
    push_cast
    ring
  push_cast
  rw [← hpow, gainLaw]
  ring

/-- A number of half codes is at most the law at a half level. -/
theorem halfCode_le_gainLaw_iff (a j : ℕ) : (a : ℝ) / 2 ≤ gainLaw (j / 2) ↔ (1000 * a) ^ 20 ≤ 65536 ^ 20 * 2 ^ j := by
  rw [← scaledPow_le_iff (by positivity) (gainLaw_nonneg _), scaledPow_halfCode, scaledPow_gainLaw, Nat.cast_le]

/-- A number of half codes is at least the law at a half level. -/
theorem gainLaw_le_halfCode_iff (a j : ℕ) : gainLaw (j / 2) ≤ (a : ℝ) / 2 ↔ 65536 ^ 20 * 2 ^ j ≤ (1000 * a) ^ 20 := by
  rw [← scaledPow_le_iff (gainLaw_nonneg _) (by positivity), scaledPow_halfCode, scaledPow_gainLaw, Nat.cast_le]

/-- The exponential law and the logarithmic law (R193) are inverse to each other. -/
theorem gainLaw_le_iff {g : ℝ} (hg : 0 < g) (x : ℝ) : gainLaw x ≤ g ↔ x ≤ 10 * Real.logb 2 (1000 * g / 32768) := by
  have hlog : x ≤ 10 * Real.logb 2 (1000 * g / 32768) ↔ x / 10 ≤ Real.logb 2 (1000 * g / 32768) := by
    constructor <;> intro h <;> linarith
  rw [hlog, Real.le_logb_iff_rpow_le (by norm_num) (by positivity), gainLaw]
  constructor <;> intro h <;> linarith

theorem le_round_iff (n : ℤ) (x : ℝ) : n ≤ round x ↔ (n : ℝ) - 1 / 2 ≤ x := by
  rw [round_eq, Int.le_floor]
  constructor <;> intro h <;> linarith

/-- The law at a level rounds to more than `n` codes. -/
theorem lt_round_gainLaw_iff (n l : ℕ) :
    (n : ℤ) < round (gainLaw l) ↔ (1000 * (2 * n + 1)) ^ 20 ≤ 65536 ^ 20 * 2 ^ (2 * l) := by
  have hlevel : ((2 * l : ℕ) : ℝ) / 2 = l := by push_cast; ring
  have hcode : ((2 * n + 1 : ℕ) : ℝ) / 2 = ((n : ℤ) + 1 : ℤ) - 1 / 2 := by push_cast; ring
  rw [← halfCode_le_gainLaw_iff, hlevel, hcode, ← le_round_iff, Int.add_one_le_iff]

/-! ### The tables, entry by entry -/

theorem romFwd_strictMono : StrictMono fun l : Fin 101 => romFwd[l.val].toNat := by
  rw [Fin.strictMono_iff_lt_succ]
  decide +kernel

theorem romTh_strictMono : StrictMono fun k : Fin 100 => romTh[k.val].toNat := by
  rw [Fin.strictMono_iff_lt_succ]
  decide +kernel

/-- The law at a level rounds to no less than the entry of `ROM_FWD`. -/
theorem romFwd_reached : ∀ l : Fin 101, 1 ≤ l.val → 1 ≤ romFwd[l.val].toNat ∧
    (1000 * (2 * (romFwd[l.val].toNat - 1) + 1)) ^ 20 ≤ 65536 ^ 20 * 2 ^ (2 * l.val) := by
  decide +kernel

/-- Below level 100, where the entry is clamped, and above the zero floor, the law rounds to no more than the
entry of `ROM_FWD`. -/
theorem romFwd_not_exceeded : ∀ l : Fin 101, 1 ≤ l.val → l.val ≤ 99 →
    65536 ^ 20 * 2 ^ (2 * l.val) < (1000 * (2 * romFwd[l.val].toNat + 1)) ^ 20 := by
  decide +kernel

/-- The threshold at index `k`, for level `k + 1`, is the law at `k + 1/2` rounded up: the law lies at or below the entry and
above the code before it. -/
theorem romTh_brackets : ∀ k : Fin 100, (1000 * (2 * (romTh[k.val].toNat - 1))) ^ 20 < 65536 ^ 20 * 2 ^ (2 * k.val + 1) ∧
    65536 ^ 20 * 2 ^ (2 * k.val + 1) ≤ (1000 * (2 * romTh[k.val].toNat)) ^ 20 := by
  decide +kernel

/-- Each threshold lies above the gain of the level below it and at or below the gain of its own level. -/
theorem romTh_between : ∀ k : Fin 100, romFwd[k.val].toNat < romTh[k.val].toNat ∧
    romTh[k.val].toNat ≤ romFwd[k.val + 1].toNat := by
  decide +kernel

/-! ### The tables are the laws -/

/-- `ROM_FWD` at a level is at most the law rounded. -/
theorem romFwd_le_round (l : Fin 101) (hl : 1 ≤ l.val) : (romFwd[l.val].toNat : ℤ) ≤ round (gainLaw l.val) := by
  obtain ⟨hpos, hreached⟩ := romFwd_reached l hl
  have := (lt_round_gainLaw_iff _ _).2 hreached
  omega

/-- `ROM_FWD` at a level below 100 is the law rounded (R192). -/
theorem round_gainLaw_eq (l : Fin 101) (hl : 1 ≤ l.val) (hlt : l.val ≤ 99) :
    round (gainLaw l.val) = (romFwd[l.val].toNat : ℤ) := by
  have hle : ¬ (romFwd[l.val].toNat : ℤ) < round (gainLaw l.val) :=
    fun h => absurd ((lt_round_gainLaw_iff _ _).1 h) (Nat.not_le.2 (romFwd_not_exceeded l hl hlt))
  exact le_antisymm (not_lt.1 hle) (romFwd_le_round l hl)

theorem romFwd_lt_of_le {l : Fin 101} (hl : l.val ≤ 99) : romFwd[l.val].toNat < 0x8000 :=
  romFwd_strictMono (show l < 100 from Nat.lt_succ_of_le hl)

/-- Settles O36: below level 100 the entry is the law rounded and lies below the entry of level 100, which is `0x8000`; there
the law rounds to no less. -/
theorem forwardTableIsTheRoundedLaw : Obligations.ForwardTableIsTheRoundedLaw := by
  refine ⟨fun _ => rfl, rfl, rfl, fun l hl => ?entry, fun l hl hlt => ?unclamped, fun l m hlm => romFwd_strictMono hlm⟩
  case entry =>
    change (romFwd[l.val].toNat : ℤ) = min 0x8000 (round (gainLaw l.val))
    rcases Nat.lt_or_ge l.val 100 with hlt | hge
    · have := romFwd_lt_of_le (Nat.le_of_lt_succ hlt)
      rw [round_gainLaw_eq l hl (Nat.le_of_lt_succ hlt)]
      omega
    · obtain rfl : l = 100 := Fin.ext (Nat.le_antisymm (Nat.le_of_lt_succ l.isLt) hge)
      exact (min_eq_left (romFwd_le_round 100 hl)).symm
  case unclamped =>
    change round (gainLaw l.val) < 0x8000
    rw [round_gainLaw_eq l hl hlt]
    exact_mod_cast romFwd_lt_of_le hlt

/-- `ROM_TH` is the law at half levels rounded up (R194). -/
theorem romTh_eq_ceil (k : Fin 100) : (romTh[k.val].toNat : ℤ) = ⌈gainLaw (k.val + 1 - 1 / 2)⌉ := by
  have hlevel : (k.val : ℝ) + 1 - 1 / 2 = ((2 * k.val + 1 : ℕ) : ℝ) / 2 := by push_cast; ring
  have hpos := romTh_pos k
  obtain ⟨hbefore, hentry⟩ := romTh_brackets k
  rw [hlevel, eq_comm, Int.ceil_eq_iff]
  constructor
  · have hcode : ((2 * (romTh[k.val].toNat - 1) : ℕ) : ℝ) / 2 = ((romTh[k.val].toNat : ℤ) : ℝ) - 1 := by
      push_cast [Nat.cast_sub hpos]
      ring
    rw [← hcode, ← not_le, gainLaw_le_halfCode_iff]
    exact Nat.not_le.2 hbefore
  · have hcode : ((2 * romTh[k.val].toNat : ℕ) : ℝ) / 2 = ((romTh[k.val].toNat : ℤ) : ℝ) := by
      push_cast
      ring
    rw [← hcode, gainLaw_le_halfCode_iff]
    exact hentry

/-- Settles O37: the entries are the law rounded up, and `inv` counts those a gain code reaches. -/
theorem thresholdTableIsTheLawRoundedUp : Obligations.ThresholdTableIsTheLawRoundedUp :=
  ⟨romTh_eq_ceil, le_inv_iff_toNat, fun _ _ hkm => romTh_strictMono hkm, rfl, rfl⟩

/-- A gain code reaches the threshold at index `k` exactly when its logarithmic level rounds to `k + 1` or more. -/
theorem romTh_le_iff_le_round (k : Fin 100) {g : Half} (hg : g ≠ 0#16) :
    romTh[k.val] ≤ g ↔ (k.val : ℤ) + 1 ≤ round (10 * Real.logb 2 (1000 * (g.toNat : ℝ) / 32768)) := by
  have hpos : (0 : ℝ) < g.toNat := Nat.cast_pos.2 (Nat.pos_of_ne_zero fun h0 => hg (BitVec.eq_of_toNat_eq h0))
  calc romTh[k.val] ≤ g
      ↔ (romTh[k.val].toNat : ℤ) ≤ (g.toNat : ℤ) := Nat.cast_le.symm
    _ ↔ gainLaw (k.val + 1 - 1 / 2) ≤ g.toNat := by
      rw [romTh_eq_ceil, Int.ceil_le, Int.cast_natCast]
    _ ↔ _ := by
      rw [gainLaw_le_iff hpos, le_round_iff]
      push_cast
      rfl

/-- Settles O38: the clamped rounded logarithm is the level whose thresholds the gain code reaches. -/
theorem inverseIsTheRoundedLogarithm : Obligations.InverseIsTheRoundedLogarithm := by
  refine ⟨rfl, fun g hg => ?_⟩
  rw [← clampL_val]
  congr 2
  refine (inv_eq_iff g _).2 fun k => ?_
  rw [romTh_le_iff_le_round k hg]
  have := clampL_val (round (10 * Real.logb 2 (1000 * (g.toNat : ℝ) / 32768)))
  have := k.isLt
  omega

/-! ### Round trips -/

/-- The gain of a level reaches exactly the thresholds up to that level (R196). -/
theorem inv_fwd (l : Level) : inv (fwd l) = l := by
  refine (inv_eq_iff _ l).2 fun k => ?_
  obtain ⟨hbelow, hown⟩ := romTh_between k
  constructor
  · intro hk
    exact hown.trans (romFwd_strictMono.monotone (show (⟨k.val + 1, by omega⟩ : Fin 101) ≤ l from hk))
  · intro hreached
    by_contra hk
    have hle : romFwd[l.val].toNat ≤ romFwd[k.val].toNat :=
      romFwd_strictMono.monotone (show l ≤ (⟨k.val, by omega⟩ : Fin 101) from Nat.le_of_not_lt hk)
    exact absurd hreached (Nat.not_le.2 (hle.trans_lt hbelow))

/-- A larger gain code reaches every threshold a smaller one does. -/
theorem inv_mono {g h : Half} (hgh : g ≤ h) : inv g ≤ inv h := by
  by_contra hlt
  have hlt : (inv h).val < (inv g).val := Fin.lt_def.1 (not_le.1 hlt)
  have hk : (inv h).val < 100 := by have : (inv g).val < 101 := (inv g).isLt; omega
  have hreached : romTh[(inv h).val] ≤ g := (le_inv_iff ⟨_, hk⟩ g).1 hlt
  exact absurd ((le_inv_iff ⟨_, hk⟩ h).2 (BitVec.le_trans hreached hgh)) (Nat.not_succ_le_self _)

/-- Settles O39: the round trip, and each direction's monotonicity. -/
theorem levelGainRoundTripIsExact : Obligations.LevelGainRoundTripIsExact :=
  ⟨inv_fwd, fun _ _ hlm => romFwd_strictMono.monotone hlm, fun _ _ => inv_mono⟩

/-- A level written as a half-word and read back as a level operand is itself (R191). -/
@[simp] theorem lvl_levelHalf (l : Level) : lvl (levelHalf l) = l := by
  have hl : l.val < 101 := l.isLt
  have hval := levelHalf_toNat l
  apply lvl_eq
  rw [BitVec.toInt_eq_toNat_cond, hval]
  split <;> omega

/-- Settles O40: the second operation takes the level the first one wrote, or inverts the gain the first one wrote. -/
theorem compositionsAgree : Obligations.CompositionsAgree := by
  intro v s
  have hgain (l : Level) : Maps (.mapL2g (levelHalf l)) (fwd l) := by simpa using Maps.mapL2g (levelHalf l)
  have hpack (l : Level) : Maps (.mapL2p (levelHalf l)) (penc l) := by simpa using Maps.mapL2p (levelHalf l)
  have hraw (l : Level) : Maps (.mapL2r (levelHalf l)) (renc l) := by simpa using Maps.mapL2r (levelHalf l)
  refine ⟨fun t ht => ?packedToGain, fun t ht => ?rawToGain, fun t ht => ?gainToPacked, fun t ht => ?gainToRaw,
    fun t ht => ?packedTrip, fun t ht => ?rawTrip⟩
  case packedToGain => rw [(Maps.mapP2g v).exec_eq, (Maps.mapP2l v).exec_result (hgain _) ht]
  case rawToGain => rw [(Maps.mapR2g v).exec_eq, (Maps.mapR2l v).exec_result (hgain _) ht]
  case gainToPacked => rw [(Maps.mapG2p v).exec_eq, (Maps.mapG2l v).exec_result (hpack _) ht]
  case gainToRaw => rw [(Maps.mapG2r v).exec_eq, (Maps.mapG2l v).exec_result (hraw _) ht]
  case packedTrip => rw [(Maps.mapP2g v).exec_result (.mapG2p _) ht, inv_fwd, penc_eq, pdec_val]
  case rawTrip => rw [(Maps.mapR2g v).exec_result (.mapG2r _) ht, inv_fwd, renc_eq, rdec_val]

end Sys2Proof.Machine
end

section
/-! PROOFS. The control operations (spec 43_control.md R230, R231, R233): which opcodes are reserved and what writing one to
`CMD` does, the `STATUS` write, and `NOP`. -/

namespace Sys2Proof.Machine

/-! ### Reserved opcodes -/

/-- Every assigned opcode has a row of the map, whatever the fields hold (R93, R94). -/
theorem denotes_of_assigned {opc : Byte} (hopc : opc ∈ assignedOpcodes) (b : Byte) (h : Half) :
    ∃ i, Denotes opc b h i := by
  simp only [assignedOpcodes, List.mem_cons, List.not_mem_nil, or_false] at hopc
  rcases hopc with rfl | rfl | rfl | rfl | rfl | rfl | rfl | rfl | rfl | rfl | rfl | rfl | rfl | rfl | rfl | rfl | rfl |
    rfl <;> exact ⟨_, by constructor⟩

/-- A word names no operation exactly when its opcode is not assigned (R95). -/
theorem decode_ne_ok_iff (w : Word) : (∀ i, decode w ≠ .ok i) ↔ opcField w ∉ assignedOpcodes := by
  constructor
  · intro hnone hassigned
    obtain ⟨i, hrow⟩ := denotes_of_assigned hassigned (byteField w) (halfField w)
    exact hnone i (commandWord_fields w ▸ hrow.decode_eq)
  · intro hreserved i
    rw [decode_of_not_assigned hreserved]
    exact nofun

/-- The three ranges of R95 hold the opcodes that are not assigned. -/
theorem reservedRanges_iff (opc : Byte) :
    ((0x02 ≤ opc.toNat ∧ opc.toNat ≤ 0x0F) ∨ (0x15 ≤ opc.toNat ∧ opc.toNat ≤ 0x1F) ∨
      (0x2B ≤ opc.toNat ∧ opc.toNat ≤ 0xFF)) ↔ opc ∉ assignedOpcodes := by
  have hlt : opc.toNat < 256 := opc.isLt
  simp only [assignedOpcodes, List.mem_cons, List.not_mem_nil, or_false, BitVec.toNat_eq, BitVec.reduceToNat]
  omega

/-- Settles O3: the words that decode to nothing are those of the unassigned opcodes, and the `CMD` write of one raises
`IllegalOp`. -/
theorem reservedOpcodeOnlySetsIllop : Obligations.ReservedOpcodeOnlySetsIllop := by
  refine ⟨?count, fun w => ⟨?ranges, fun s rest hwrite hnone => ?write⟩⟩
  case count => decide +kernel
  case ranges => rw [reservedRanges_iff, decode_ne_ok_iff]
  case write =>
    rw [step_command hwrite, commandWrite, decode_of_not_assigned ((decode_ne_ok_iff w).1 hnone)]
    rfl

/-! ### The `STATUS` write and `NOP` -/

/-- Settles O45: the step stores in `STATUS`, which clears the flags; `irq` is `DP`, cleared by bit 3. -/
theorem statusWriteClearsTheFlagsNamed : Obligations.StatusWriteClearsTheFlagsNamed := by
  intro s rest w hwrite
  refine ⟨clearFlags w (respond .writeOk (setInputs rest s)), step_store_at hwrite rfl rfl rfl nofun, rfl, rfl, rfl, rfl,
    rfl, fun hbit => ?irq, rfl⟩
  case irq => simp [State.irq, w1c, hbit]

/-- Settles O41: `NOP`'s row of the opcode map ignores both fields, and its arm of `exec` gives back the state. -/
theorem nopChangesNothing : Obligations.NopChangesNothing :=
  ⟨fun _ => rfl, fun b h => (Denotes.nop b h).decode_eq⟩

end Sys2Proof.Machine
end

section
/-! PROOFS. The events (spec 60_exceptions.md R240 to R244, R249, R256): a step raises the one event its input is the cause
of, and an orderly host gives cause for none but `FrameDiscard`. -/

namespace Sys2Proof.Machine

/-! ### At most one event a step -/

/-- Whatever event flags an input sets, they are the flag of one event (R249). -/
theorem EventFlagEffect.exists_only_event {i : Input} {s t : State} (h : EventFlagEffect s t i) :
    ∃ e₀ : Event, ∀ e : Event, e.flag s = false → e.flag t = true → e = e₀ := by
  cases h with
  | kept hsame => exact ⟨.frameDiscard, fun e hs ht => nomatch hs.symm.trans ((hsame e).symm.trans ht)⟩
  | raised e₀ _ hsame =>
    refine ⟨e₀, fun e hs ht => ?_⟩
    rw [hsame, flag_raise, hs, Bool.or_false] at ht
    exact of_decide_eq_true ht
  | reset hclear => exact ⟨.frameDiscard, fun e _ ht => nomatch (hclear e).symm.trans ht⟩
  | statusWrite w hsame =>
    refine ⟨.frameDiscard, fun e hs ht => ?_⟩
    rw [hsame, flag_clearFlags, hs] at ht
    cases ht

/-- Counted over the four events: the count is at most that of the one event in a list that holds each once. -/
theorem EventFlagEffect.eventsRaised_le_one {i : Input} {s t : State} (h : EventFlagEffect s t i) :
    eventsRaised s t ≤ 1 := by
  obtain ⟨e₀, honly⟩ := h.exists_only_event
  have hnodup : [Event.frameDiscard, .encodeLength, .illegalOp, .busError].Nodup := by decide
  rw [eventsRaised, ← List.countP_eq_length_filter]
  refine (List.countP_mono_left fun e _ hset => ?_).trans (List.nodup_iff_count_le_one.1 hnodup e₀)
  obtain ⟨hs, ht⟩ := Bool.and_eq_true_iff.1 hset
  exact beq_iff_eq.2 (honly e ((Bool.not_eq_true' _).mp hs) ht)

/-! ### The `FEED` that discards -/

/-- A step that services a `FEED` feeds a byte (R90, R120). -/
theorem step_isFeed {s : State} {i : Input} {rest : List Input} (hinputs : s.inputs = i :: rest) (hfeed : IsFeed i) :
    ∃ b, step s = .next (feed b (respond .writeOk (setInputs rest s))) := by
  obtain ⟨w, b, rfl, hd⟩ := hfeed
  exact ⟨b, by rw [step_command hinputs, commandWrite, hd]; rfl⟩

/-- A `FEED` that sets `DROP` leaves no frame: the one that emits keeps `DROP` (R121, R126, R242). -/
theorem feed_no_frame_of_drop_set {b : Byte} {s : State} (hs : s.drop = false) (ht : (feed b s).drop = true) :
    (feed b s).fv = false ∧ (feed b s).dp = false := by
  obtain ⟨i, n, -, -, -, -, h⟩ | ⟨-, hnone⟩ := feed_emits_or_keeps_latched b s
  · rw [h, emit_drop, putRx_drop, endFrame_drop, hs] at ht
    cases ht
  · exact hnone

/-- Settles O51: the effect of the input on the event flags names the one event and its cause, and a `FEED` that sets `DROP`
does not emit. -/
theorem eachAccessRaisesAtMostOneEvent : Obligations.EachAccessRaisesAtMostOneEvent := by
  intro s t i rest hinputs hstep
  have hevent : EventFlagEffect (setInputs rest s) t i := (serviceInput_cases (step_cons hinputs ▸ hstep)).eventFlags
  refine ⟨hevent.eventsRaised_le_one, hevent.flag_set .busError, hevent.flag_set .illegalOp, fun hs ht => ?discard,
    hevent.flag_set .encodeLength⟩
  case discard =>
    have hfeed : IsFeed i := hevent.flag_set .frameDiscard hs ht
    obtain ⟨b, hb⟩ := step_isFeed hinputs hfeed
    obtain rfl : feed b (respond .writeOk (setInputs rest s)) = t := by injection hb.symm.trans hstep
    exact ⟨hfeed, feed_no_frame_of_drop_set hs ht⟩

/-! ### The orderly host -/

/-- A command an orderly host writes is an assigned operation, and a text it encodes fits (R256). -/
theorem Orderly.command {i : Input} {w : Word} (h : Orderly i) (hcmd : IsCommand i w) :
    ∃ op, decode w = .ok op ∧ ∀ n, op = .encWtext n → n.toNat ≤ 58 := by
  obtain rfl := hcmd
  exact h.2 0x000#10 w rfl rfl

/-- An orderly input is the cause of no event but `FrameDiscard` (R241, R243, R244). -/
theorem Orderly.not_causedBy {i : Input} (h : Orderly i) {e : Event} (he : e ≠ .frameDiscard) : ¬ e.CausedBy i := by
  intro hcause
  cases e with
  | frameDiscard => exact he rfl
  | encodeLength =>
    obtain ⟨w, n, hcmd, hd, hlong⟩ := hcause
    obtain ⟨op, hop, hfits⟩ := h.command hcmd
    exact absurd (hfits n (by injection hop.symm.trans hd)) (Nat.not_le.2 hlong)
  | illegalOp =>
    obtain ⟨w, o, hcmd, hd⟩ := hcause
    obtain ⟨op, hop, -⟩ := h.command hcmd
    cases hop.symm.trans hd
  | busError =>
    obtain ⟨a, rfl, hrejected⟩ := hcause
    cases hrejected.symm.trans h.1

/-- The flags of the events that are the host's own fault, all but `DROP`, are 0. -/
def NoHostError (s : State) : Prop := ∀ e : Event, e ≠ .frameDiscard → e.flag s = false

theorem noHostError_iff (s : State) :
    NoHostError s ↔ s.buserr = false ∧ s.illop = false ∧ s.eerr = false := by
  constructor
  · exact fun h => ⟨h .busError nofun, h .illegalOp nofun, h .encodeLength nofun⟩
  · rintro ⟨hbuserr, hillop, heerr⟩ e he
    cases e with
    | frameDiscard => exact absurd rfl he
    | encodeLength => exact heerr
    | illegalOp => exact hillop
    | busError => exact hbuserr

/-- A step over orderly inputs raises none of them: only a cause of an event sets its flag. -/
theorem step_noHostError {s t : State} (hin : ∀ i ∈ s.inputs, Orderly i) (h : step s = .next t) (hs : NoHostError s) :
    NoHostError t := by
  intro e he
  obtain ⟨-, rfl⟩ | ⟨i, rest, hinputs, heffect⟩ := step_cases h
  · exact hs e he
  · have horderly : Orderly i := hin i (hinputs ▸ List.mem_cons_self)
    exact Bool.eq_false_of_not_eq_true fun ht =>
      horderly.not_causedBy he (heffect.eventFlags.flag_set e (hs e he) ht)

/-- Nor does any number of steps: by induction over the steps, the inputs still to come being orderly too. -/
theorem runSteps_noHostError {k : Nat} {s t : State} (hin : ∀ i ∈ s.inputs, Orderly i) (h : runSteps k s = .next t)
    (hs : NoHostError s) : NoHostError t := by
  induction k generalizing s with
  | zero =>
    injection h with h
    exact h ▸ hs
  | succ k ih =>
    obtain ⟨u, hu⟩ := step_completes s
    rw [runSteps_succ hu] at h
    exact ih (fun i hi => hin i (List.mem_of_mem_tail (step_inputs hu ▸ hi))) h (step_noHostError hin hu hs)

/-- Settles O54: the three flags are those of the events that are the host's fault, and steps over orderly inputs raise none
of these. -/
theorem orderlyHostRaisesNoHostError : Obligations.OrderlyHostRaisesNoHostError :=
  fun _ s t hin hrun hbuserr hillop heerr =>
    (noHostError_iff t).1 (runSteps_noHostError hin hrun ((noHostError_iff s).2 ⟨hbuserr, hillop, heerr⟩))

end Sys2Proof.Machine
end

section
/-! PROOFS. Reset (spec 70_reset_and_hazards.md R270, R271): a state is reset when its registers are those of `State.reset`,
whatever its buffers hold and whatever inputs are still to come, and its register words then read 0. -/

namespace Sys2Proof.Machine

/-- Every register is at the value of R270's table; the buffers, which the table leaves unspecified, and the inputs and the
reset count, which are the model's own, are anything. -/
def RegistersReset (u : State) : Prop :=
  ∃ (rx tx : Vector Byte 64) (text : Vector Byte 58) (l : List Input) (k : Nat),
    u = { State.reset with rxbuf := rx, txbuf := tx, textbuf := text, inputs := l, resets := k }

theorem registersReset_reset : RegistersReset State.reset :=
  ⟨State.reset.rxbuf, State.reset.txbuf, State.reset.textbuf, [], 0, rfl⟩

theorem registersReset_applyReset (s : State) : RegistersReset (applyReset s) :=
  ⟨(applyReset s).rxbuf, (applyReset s).txbuf, (applyReset s).textbuf, s.inputs, s.resets + 1, applyReset_eq s⟩

/-- The words of the window that R270 names as reading 0 after reset. -/
def registerWords : List WindowWord := [.vaddr, .result, .status, .handlerEn, .rxcnt, .frame, .rxvar, .txlen]

/-- None of these words shows any of a buffer, so each is a register that is 0 or the sum of fields that are 0. -/
theorem RegistersReset.readWord_eq_zero {u : State} (hu : RegistersReset u) :
    ∀ w ∈ registerWords, readWord w u = 0#32 := by
  obtain ⟨rx, tx, text, l, k, rfl⟩ := hu
  simp only [registerWords, List.forall_mem_cons]
  exact ⟨rfl, rfl, BitVec.eq_of_toNat_eq (statusWord_toNat _), rfl, rfl, BitVec.eq_of_toNat_eq (frameWord_toNat _),
    BitVec.eq_of_toNat_eq (rxvarWord_toNat _), rfl, nofun⟩

/-- Settles O49: the step applies the reset, and the state it gives and the reset state both have their registers reset. -/
theorem resetLeavesTheTabulatedValues : Obligations.ResetLeavesTheTabulatedValues := by
  intro s rest h
  refine ⟨applyReset (setInputs rest s), step_cons h, rfl, fun u hu => ?_⟩
  have hreset : RegistersReset u := by
    obtain rfl | rfl := hu
    · exact registersReset_applyReset (setInputs rest s)
    · exact registersReset_reset
  have hzero := hreset.readWord_eq_zero
  obtain ⟨rx, tx, text, l, k, rfl⟩ := hreset
  exact ⟨rfl, rfl, rfl, rfl, rfl, rfl, rfl, rfl, rfl, rfl, rfl, rfl, ⟨rfl, rfl, rfl, rfl⟩, rfl, rfl, rfl, rfl,
    hzero .status (by decide), hzero .frame (by decide), hzero .rxvar (by decide), hzero .rxcnt (by decide),
    hzero .txlen (by decide), hzero .handlerEn (by decide), hzero .vaddr (by decide), hzero .result (by decide)⟩

end Sys2Proof.Machine
end
